-- ==== Sys2Proof/Word.lean ====
section
/-! DEFINITION. The word types of the MMC/SD command core (R9, R56): bytes on the bus, 32-bit arguments. -/

namespace Sys2Proof

/-- One byte on the serial bus (R56): the only access width. -/
abbrev Byte := BitVec 8

/-- A 32-bit command argument, block number or card address (R7, R52). -/
abbrev Word32 := BitVec 32

/-- A 6-byte command frame as a 48-bit value, `F0` in bits 47:40 (R80). -/
abbrev Frame := BitVec 48

end Sys2Proof
end

