-- ==== Sys2Proof/Config.lean ====
section
/-! DEFINITION. What is fixed for one machine: the constants and parameters of R7, and the free value.

The parameters the spec leaves open (`P_CRC7_MODE`, `P_COPY_MODE`, `P_CRC16_CHECK`, the two warm-up counts)
are a record that `State` carries unchanged, so that every statement quantifies over every configuration;
`Params.default` holds the defaults of R7. -/

namespace Sys2Proof.Config

/-- `SECTOR_SIZE` (R7). -/
def sectorSize : Nat := 512

/-- `CRC_BYTES`, the trailing integrity bytes of a sector (R7, R92). -/
def crcBytes : Nat := 2

/-- Bytes of one data packet after the token: `SECTOR_SIZE + CRC_BYTES` = 514 (R92). -/
def packetBytes : Nat := sectorSize + crcBytes

/-- `N_RESP_POLL` (R7, R124). -/
def nRespPoll : Byte := 10#8

/-- `N_IDLE_POLL` (R7, R166, R170), in the 16-bit counter `TMR`. -/
def nIdlePoll : BitVec 16 := 25000#16

/-- `N_TOKEN_POLL` (R7, R204), in the 16-bit counter `BC`. -/
def nTokenPoll : BitVec 16 := 30000#16

/-- `IF_COND_ARG` (R7, R85). -/
def ifCondArg : Word32 := 0x000001AA#32

/-- `BLOCKLEN_ARG` (R7, R85). -/
def blockLenArg : Word32 := 0x00000200#32

/-- `HCS_ARG`: argument bit 30 (R7, R85, D14). -/
def hcsArg : Word32 := 0x40000000#32

/-- `DUMMY`, sent on every exchange that is not a frame byte (R7, D6). -/
def dummy : Byte := 0xFF#8

/-- `TOKEN_START` (R7, R91). -/
def tokenStart : Byte := 0xFE#8

/-- `TOKEN_WAIT` (R7, R91). -/
def tokenWait : Byte := 0xFF#8

/-- FREE VALUE. A byte the spec does not fix: nothing is known of it, and every use takes a fresh index
(the counter `State.free`). It stands for the byte a card returns beyond those listed in `State.incoming`
(R10, R31: a draw under no law) and for the destination's contents after a failed read (R211: any value). -/
opaque freeByte : Nat → Byte

end Sys2Proof.Config

namespace Sys2Proof

/-- `P_CRC7_MODE` (R7, D5): the trailing byte is a stored constant, or computed. -/
inductive Crc7Mode where
  | table
  | computed
deriving DecidableEq, Repr

/-- `P_COPY_MODE` (R7, D20): the copy collaborator consumes the data packet, or the core does. -/
inductive CopyMode where
  | delegated
  | inlined
deriving DecidableEq, Repr

/-- The implementation parameters a model takes as arguments (R7; 93_implementation_defined.md rows 8 to 11). -/
structure Params where
  /-- `P_CRC7_MODE` -/
  crc7Mode : Crc7Mode
  /-- `P_COPY_MODE` -/
  copyMode : CopyMode
  /-- `P_CRC16_CHECK` -/
  crc16Check : Bool
  /-- `N_WARMUP_DESEL`, at least 10 (R161) -/
  nWarmupDesel : Nat
  /-- `N_WARMUP_SEL`, at least 600 (R161) -/
  nWarmupSel : Nat
deriving DecidableEq, Repr

/-- The defaults of R7: exactly the source document's behaviour. -/
def Params.default : Params where
  crc7Mode := .table
  copyMode := .delegated
  crc16Check := false
  nWarmupDesel := 10
  nWarmupSel := 600

end Sys2Proof
end

