-- ==== Sys2Proof/Syntax.lean ====
section
/-! DEFINITION. The instructions: the eight card commands the core forms (R82, R85) and the two host requests
(R96), one constructor per row of spec/opcode_table.json. An operand stands only where the spec lets it vary. -/

namespace Sys2Proof

/-- `DST`, the caller's opaque destination handle (R50, D24): the core only passes it on. The spec gives it no
width; any natural number names a destination. -/
abbrev Handle := Nat

/-- One instruction of the core. -/
inductive Instr where
  /-- `CMD0(0)`, reset-to-idle (R128) -/
  | cmd0
  /-- `CMD1(0)`, plain operation-condition command (R129) -/
  | cmd1
  /-- `CMD8(0x1AA)`, interface-condition-check (R130) -/
  | cmd8
  /-- `CMD16(0x200)`, block-length-set (R131) -/
  | cmd16
  /-- `CMD17(ADDR)`, single-block-read (R132) -/
  | cmd17 (addr : Word32)
  /-- `CMD55(0)`, application-command prefix (R133) -/
  | cmd55
  /-- `CMD58(0)`, read the operation-conditions register (R134) -/
  | cmd58
  /-- `ACMD41(0x40000000)` when `hcs`, else `ACMD41(0)` (R135, R85) -/
  | acmd41 (hcs : Bool)
  /-- host request `INITIALIZE`, `OP = 0b01` (R160) -/
  | hostInitialize
  /-- host request `READ_PARTIAL DST, BLK, OFS, CNT`, `OP = 0b10` (R200) -/
  | readPartial (dst : Handle) (blk : Word32) (ofs cnt : BitVec 10)
deriving DecidableEq, Repr

/-- A host request as it stands on the upward interface (R29, R96): the 2-bit operation field and the operands,
which only a read uses. -/
structure Request where
  /-- `OP`, 2 bits -/
  op : BitVec 2
  /-- `DST`, opaque -/
  dst : Handle
  /-- `BLK`, 32 bits -/
  blk : Word32
  /-- `OFS`, 10 bits -/
  ofs : BitVec 10
  /-- `CNT`, 10 bits -/
  cnt : BitVec 10
deriving DecidableEq, Repr

end Sys2Proof
end

