-- ==== Sys2Proof/Decode.lean ====
section
/-! DEFINITION. Encodings (30_encoding.md): the CRC-7 (R84), the trailing byte (R83), the 6-byte frame (R80, R81),
the decoder of frames and of host requests (R82, R85, R96), total and rejecting by name, and the encoder. -/

namespace Sys2Proof

/-! ## CRC-7 and the trailing byte -/

/-- One bit of the CRC-7 of R84 (polynomial x^7 + x^3 + 1). -/
def crc7Bit (c : BitVec 7) (bit : Bool) : BitVec 7 :=
  if (bit ^^ c.getLsbD 6) then (c <<< 1) ^^^ 0x09#7 else c <<< 1

/-- One byte of the CRC-7, most significant bit first (R84). -/
def crc7Byte (c : BitVec 7) (b : Byte) : BitVec 7 :=
  [7, 6, 5, 4, 3, 2, 1, 0].foldl (fun c i => crc7Bit c (b.getLsbD i)) c

/-- `crc7(bytes)`, initial value 0 (R84). -/
def crc7 (bytes : List Byte) : BitVec 7 :=
  bytes.foldl crc7Byte 0#7

/-- The bytes of an argument, most significant first (R54, R80). -/
def argBytes (arg : Word32) : List Byte :=
  [arg.extractLsb' 24 8, arg.extractLsb' 16 8, arg.extractLsb' 8 8, arg.extractLsb' 0 8]

/-- The stored trailing byte, chosen by `F0` alone (R83). -/
def trailerTable (f0 : Byte) : Byte :=
  if f0 = 0x40#8 then 0x95#8 else if f0 = 0x48#8 then 0x87#8 else 0x01#8

/-- The computed trailing byte `(crc7(F0..F4) << 1) | 1` (R84). -/
def trailerComputed (f0 : Byte) (arg : Word32) : Byte :=
  crc7 (f0 :: argBytes arg) ++ 1#1

/-- `trailer(CODE, ARG)`: `F5`, as `P_CRC7_MODE` chooses it (R83, R84). -/
def trailer (mode : Crc7Mode) (f0 : Byte) (arg : Word32) : Byte :=
  match mode with
  | .table => trailerTable f0
  | .computed => trailerComputed f0 arg

/-! ## Frames -/

/-- The frame of command code `CODE` and argument `ARG`: `F0 = CODE & 0x7F`, the argument most significant byte
first, the trailing byte (R80, R81). -/
def frameOf (mode : Crc7Mode) (code : Byte) (arg : Word32) : Frame :=
  (code &&& 0x7F#8) ++ arg ++ trailer mode (code &&& 0x7F#8) arg

/-- `F0`, bits 47:40 (R80). -/
def frameF0 (w : Frame) : Byte := w.extractLsb' 40 8

/-- The argument, bits 39:8 (R80). -/
def frameArg (w : Frame) : Word32 := w.extractLsb' 8 32

/-- `F5`, bits 7:0 (R80). -/
def frameF5 (w : Frame) : Byte := w.extractLsb' 0 8

/-- `Fk`, the byte sent `k`-th (R80): `F0` is in bits 47:40, `F5` in bits 7:0. -/
def frameByte (w : Frame) (k : Fin 6) : Byte := w.extractLsb' (8 * (5 - k.val)) 8

/-- The six bytes of a frame in the order they are sent (R80). -/
def frameBytes (w : Frame) : List Byte :=
  [frameByte w 0, frameByte w 1, frameByte w 2, frameByte w 3, frameByte w 4, frameByte w 5]

/-! ## Command codes -/

/-- `CODE` of `CMD0` (R82). -/
def codeCmd0 : Byte := 0x40#8
/-- `CODE` of `CMD1` (R82). -/
def codeCmd1 : Byte := 0x41#8
/-- `CODE` of `CMD8` (R82). -/
def codeCmd8 : Byte := 0x48#8
/-- `CODE` of `CMD16` (R82). -/
def codeCmd16 : Byte := 0x50#8
/-- `CODE` of `CMD17` (R82). -/
def codeCmd17 : Byte := 0x51#8
/-- `CODE` of `CMD55` (R82). -/
def codeCmd55 : Byte := 0x77#8
/-- `CODE` of `CMD58` (R82). -/
def codeCmd58 : Byte := 0x7A#8
/-- `CODE` of `ACMD41`, tag bit 7 set (R81, R82). -/
def codeAcmd41 : Byte := 0xE9#8

/-- `APP = CODE[7]`: the command must be preceded by the prefix (R81). -/
def isApp (code : Byte) : Bool := code.getLsbD 7

/-- The argument of `ACMD41`: `HCS_ARG` or 0 (R85). -/
def acmd41Arg (hcs : Bool) : Word32 := if hcs then Config.hcsArg else 0#32

/-! ## Decoding -/

/-- Why an encoding is rejected. -/
inductive DecodeError where
  /-- `F0` is none of the eight commands' (R82, R94) -/
  | unknownCommand
  /-- the argument is none the core sends with this command (R85) -/
  | badArgument
  /-- `F5` is not the trailing byte of this frame (R83, R84) -/
  | badTrailer
  /-- not six bytes (R86) -/
  | badLength
  /-- `OP` is 0b00 or 0b11 (R96) -/
  | reservedOp
deriving DecidableEq, Repr

/-- What the decoder answers: an instruction, or a rejection by name. -/
inductive Decoded where
  | ok (i : Instr)
  | error (e : DecodeError)
deriving DecidableEq, Repr

/-- The instruction, where there is one. -/
def decodedInstr (d : Decoded) : Option Instr :=
  match d with
  | .ok i => some i
  | .error _ => none

/-- Accepts `i` if the argument is the one R85 gives its command. -/
def withArg (ok : Bool) (i : Instr) : Decoded := if ok then .ok i else .error .badArgument

/-- The command of `F0` and an argument (R82, R85). -/
def decodeCommand (f0 : Byte) (arg : Word32) : Decoded :=
  if f0 = 0x40#8 then withArg (arg = 0#32) .cmd0
  else if f0 = 0x41#8 then withArg (arg = 0#32) .cmd1
  else if f0 = 0x48#8 then withArg (arg = Config.ifCondArg) .cmd8
  else if f0 = 0x50#8 then withArg (arg = Config.blockLenArg) .cmd16
  else if f0 = 0x51#8 then .ok (.cmd17 arg)
  else if f0 = 0x77#8 then withArg (arg = 0#32) .cmd55
  else if f0 = 0x7A#8 then withArg (arg = 0#32) .cmd58
  else if f0 = 0x69#8 then
    if arg = Config.hcsArg then .ok (.acmd41 true) else withArg (arg = 0#32) (.acmd41 false)
  else .error .unknownCommand

/-- Decodes a 48-bit frame (R80 to R85). -/
def decodeFrame (mode : Crc7Mode) (w : Frame) : Decoded :=
  if frameF5 w = trailer mode (frameF0 w) (frameArg w) then decodeCommand (frameF0 w) (frameArg w)
  else .error .badTrailer

/-- Six bytes in sending order as a frame (R80). -/
def frameOfBytes (f0 f1 f2 f3 f4 f5 : Byte) : Frame := f0 ++ f1 ++ f2 ++ f3 ++ f4 ++ f5

/-- Decodes the bytes of a frame; total on any bytes (R86: a frame is told by its count alone). -/
def decodeFrameBytes (mode : Crc7Mode) (bytes : List Byte) : Decoded :=
  match bytes with
  | [f0, f1, f2, f3, f4, f5] => decodeFrame mode (frameOfBytes f0 f1 f2 f3 f4 f5)
  | _ => .error .badLength

/-- Decodes a host request (R96). -/
def decodeRequest (r : Request) : Decoded :=
  if r.op = 0b01#2 then .ok .hostInitialize
  else if r.op = 0b10#2 then .ok (.readPartial r.dst r.blk r.ofs r.cnt)
  else .error .reservedOp

/-! ## Host requests as one number

DESIGN CHOICE, safe (notes/assumptions/3.md): the spec gives the fields of a request and not their places in a
word. `OP` is in bits 1:0 (opcode_table.json), then `BLK` 33:2, `OFS` 43:34, `CNT` 53:44 and `DST` from bit 54. -/

/-- The request whose bits are `w`. -/
def requestOfWord (w : Nat) : Request where
  op := BitVec.ofNat 2 w
  blk := BitVec.ofNat 32 (w / 2 ^ 2)
  ofs := BitVec.ofNat 10 (w / 2 ^ 34)
  cnt := BitVec.ofNat 10 (w / 2 ^ 44)
  dst := w / 2 ^ 54

/-- The bits of a request. -/
def wordOfRequest (r : Request) : Nat :=
  r.op.toNat + 2 ^ 2 * r.blk.toNat + 2 ^ 34 * r.ofs.toNat + 2 ^ 44 * r.cnt.toNat + 2 ^ 54 * r.dst

/-- The instruction the decoder reads from `nbits` bits numbered as spec/opcode_table.json numbers them: a row
of 48 bits is a command frame in the default `P_CRC7_MODE` (the table's trailing bytes are `TABLE`'s), any other
a host request whose operand bits above `nbits` are 0. -/
def decodeTableWord (nbits w : Nat) : Option Instr :=
  if nbits = 48 then decodedInstr (decodeFrame Params.default.crc7Mode (BitVec.ofNat 48 w))
  else decodedInstr (decodeRequest (requestOfWord (w % 2 ^ nbits)))

/-! ## Encoding -/

/-- The words of an instruction: a card command is a frame on the bus, a host request stands on the upward
interface. -/
inductive Encoded where
  | frame (w : Frame)
  | request (r : Request)
deriving DecidableEq, Repr

/-- The words of an instruction (R80 to R85, R96). The frame of `ACMD41` is its second frame: the `CMD55` frame
before it is an instruction of its own (R86, R95). -/
def encode (mode : Crc7Mode) (i : Instr) : Encoded :=
  match i with
  | .cmd0 => .frame (frameOf mode codeCmd0 0#32)
  | .cmd1 => .frame (frameOf mode codeCmd1 0#32)
  | .cmd8 => .frame (frameOf mode codeCmd8 Config.ifCondArg)
  | .cmd16 => .frame (frameOf mode codeCmd16 Config.blockLenArg)
  | .cmd17 addr => .frame (frameOf mode codeCmd17 addr)
  | .cmd55 => .frame (frameOf mode codeCmd55 0#32)
  | .cmd58 => .frame (frameOf mode codeCmd58 0#32)
  | .acmd41 hcs => .frame (frameOf mode codeAcmd41 (acmd41Arg hcs))
  | .hostInitialize => .request ⟨0b01#2, 0, 0#32, 0#10, 0#10⟩
  | .readPartial dst blk ofs cnt => .request ⟨0b10#2, dst, blk, ofs, cnt⟩

/-- Decodes either kind of words. -/
def decode (mode : Crc7Mode) (e : Encoded) : Decoded :=
  match e with
  | .frame w => decodeFrame mode w
  | .request r => decodeRequest r

end Sys2Proof
end

