-- ==== Sys2Proof/Machine/State.lean ====
section
/-! DEFINITION. The machine's state as plain data (10_state.md), the reasons a step can stop, and the state after
reset (R33, R270). -/

namespace Sys2Proof.Machine

/-! ## Names -/

/-- `STATUS`, the result of `INITIALIZE` (R24, R173). -/
inductive Status where
  | ready
  | notInitialized
deriving DecidableEq, Repr

/-- `RESULT` of `READ_PARTIAL` (R26, R200). -/
inductive ReadResult where
  | ok
  | error
deriving DecidableEq, Repr

/-- The result an operation returns to the host (R31, R235). -/
inductive OpResult where
  | initialized (status : Status)
  | read (result : ReadResult)
deriving DecidableEq, Repr

/-- One event of the trace (R10, R31). -/
inductive Event where
  /-- `Sel(b)` -/
  | sel (b : Bool)
  /-- `Xchg(o, i)` -/
  | xchg (o i : Byte)
  /-- `Copy(dst, ofs, cnt)` -/
  | copy (dst : Handle) (ofs cnt : BitVec 10)
  /-- `Wr(dst, i, v)` -/
  | wr (dst : Handle) (i : Nat) (v : Byte)
deriving DecidableEq, Repr

/-- A failure label with its recorded value (R231). -/
inductive Failure where
  /-- `F_RESET`, records `RES` -/
  | reset (res : Byte)
  /-- `F_ECHO`, records `BUF[0..3]` -/
  | echo (b0 b1 b2 b3 : Byte)
  /-- `F_HCS_TIMEOUT`, records the last `RES` -/
  | hcsTimeout (res : Byte)
  /-- `F_OCR`, records `RES` -/
  | ocr (res : Byte)
  /-- `F_IDLE_TIMEOUT`, records the last `RES` and `PCMD` -/
  | idleTimeout (res pcmd : Byte)
  /-- `F_BLOCKLEN`, records `RES` -/
  | blockLen (res : Byte)
  /-- `F_READ_CMD`, records `RES` and `ADDR` -/
  | readCmd (res : Byte) (addr : Word32)
  /-- `F_TOKEN_TIMEOUT` -/
  | tokenTimeout
  /-- `F_TOKEN_BAD`, records `RC` -/
  | tokenBad (rc : Byte)
  /-- `F_DATA_CRC`, records the computed and the received CRC -/
  | dataCrc (computed received : BitVec 16)
deriving DecidableEq, Repr

/-- The working registers of R26, as names for `Fault.unwrittenRegister`. -/
inductive WorkReg where
  | res | n | tmr | bc | buf | ty | pcmd | addr | rc | result | d
deriving DecidableEq, Repr

/-! ## Working registers -/

/-- The working registers (R26). A register that no step of the current operation has written HOLDS NO VALUE
(R27, and R33 gives "no value (unwritten)" as the reset value): `none` is the spec's own state of a register, and
reading it is the fault R27 asks for. -/
structure Work where
  /-- `RES`: last R1 returned by `SEND_COMMAND` -/
  res : Option Byte
  /-- `N`: remaining response-byte attempts -/
  n : Option Byte
  /-- `TMR`: remaining idle-exit attempts -/
  tmr : Option (BitVec 16)
  /-- `BC`: remaining token reads -/
  bc : Option (BitVec 16)
  /-- `BUF[0..3]`, `BUF[0]` received first -/
  buf : Vector (Option Byte) 4
  /-- `TY`: provisional classification -/
  ty : Option Byte
  /-- `PCMD`: command chosen for idle-exit polling -/
  pcmd : Option Byte
  /-- `ADDR`: read-command argument -/
  addr : Option Word32
  /-- `RC`: last byte read while waiting for the token -/
  rc : Option Byte
  /-- `RESULT` of `READ_PARTIAL` -/
  result : Option ReadResult
  /-- `D[0..513]`: `D[j]` is entry `j`; an entry that is `none` or past the list's end holds no value -/
  d : List (Option Byte)
deriving DecidableEq, Repr

/-- Every working register unwritten (R27, R33). -/
def Work.unwritten : Work where
  res := none
  n := none
  tmr := none
  bc := none
  buf := Vector.replicate 4 none
  ty := none
  pcmd := none
  addr := none
  rc := none
  result := none
  d := []

/-! ## Sequencer position -/

/-- Positions inside `SEND_COMMAND` (R28, R120). -/
inductive CallPos where
  /-- `C_PREFIX`, step A due: the `CMD55` dispatch has not begun (R121) -/
  | prefixDue
  /-- `C_PREFIX`, step A running: the `CMD55` dispatch stands above on the return stack (R121) -/
  | prefixWait
  /-- `C_BRACKET(k)`: event `k` of the bracketing is due (R122) -/
  | bracket (k : Fin 4)
  /-- `C_FRAME(k)`: `Fk` is due (R123) -/
  | frame (k : Fin 6)
  /-- `C_POLL`: a response read is due; the count left is in `N` (R124) -/
  | poll
deriving DecidableEq, Repr

/-- One entry of the return stack: a `SEND_COMMAND` in progress, with the frame of its `CODE` and `ARG`. -/
structure Call where
  frame : Frame
  pos : CallPos
deriving DecidableEq, Repr

/-- Positions of `INITIALIZE` (R28, R160). `cmd0`, `cmd8`, `hcs`, `ocr`, `probe`, `idlex` and `blen` are the return
points of its `SEND_COMMAND` calls. -/
inductive InitPos where
  /-- `I_WARM`: event `k` of the warm-up is due (R161) -/
  | warm (k : Nat)
  /-- `I_CMD0` (R163) -/
  | cmd0
  /-- `I_CMD8` (R164) -/
  | cmd8
  /-- `I_ECHO`: echo byte `k` is due (R165) -/
  | echo (k : Fin 4)
  /-- `I_HCS` (R166) -/
  | hcs
  /-- `I_OCR`, the `CMD58` dispatch (R167) -/
  | ocr
  /-- `I_OCR`: OCR byte `k` is due (R167) -/
  | ocrRead (k : Fin 4)
  /-- `I_PROBE` (R169) -/
  | probe
  /-- `I_IDLEX` (R170) -/
  | idlex
  /-- `I_BLEN` (R171) -/
  | blen
  /-- `I_CLEAN`: `Sel(false)` is due, after `CARD_TYPE <- TY` (R172) -/
  | clean
  /-- `I_CLEAN`: the trailing dummy exchange is due (R172, R125) -/
  | release
deriving DecidableEq, Repr

/-- Positions of `READ_PARTIAL` (R28, R200). -/
inductive ReadPos where
  /-- `R_CMD17`, the return point of the read command (R203) -/
  | cmd17
  /-- `R_TOKEN`: a token read is due (R204) -/
  | token
  /-- `R_COPY`, delegated: the `Copy` event is due (R205) -/
  | copy
  /-- `R_COPY`, inline: the exchange that reads `D[j]` is due (R207) -/
  | packet (j : Fin 514)
  /-- `R_COPY`, inline: the `Wr` event of `D[j]` is due (R207) -/
  | write (j : Fin 514)
  /-- `R_CLEAN`: `Sel(false)` is due (R209) -/
  | clean
  /-- `R_CLEAN`: the trailing dummy exchange is due (R209, R125) -/
  | release
deriving DecidableEq, Repr

/-- The operands the upward interface holds while a read runs (R29). -/
structure ReadOperands where
  dst : Handle
  blk : Word32
  ofs : BitVec 10
  cnt : BitVec 10
deriving DecidableEq, Repr

/-- The sequencer's position in the top-level operation (R28). -/
inductive Position where
  /-- `IDLE` -/
  | idle
  | initOp (at_ : InitPos)
  | readOp (ops : ReadOperands) (at_ : ReadPos)
deriving DecidableEq, Repr

/-! ## State -/

/-- The destination space: sorted cells, no repeats; an unlisted address holds no value. -/
abbrev Memory := List Host.Cell

/-- The machine's state. -/
structure State where
  /-- the implementation parameters (R7); no step changes them -/
  params : Params
  /-- `CARD_TYPE` (R21) -/
  cardType : Byte
  /-- `SEL` (R25) -/
  sel : Bool
  /-- the working registers (R26) -/
  work : Work
  /-- the position in the top-level operation (R28) -/
  pos : Position
  /-- the return stack of `SEND_COMMAND` calls, innermost first (R28) -/
  calls : List Call
  /-- the request offered on the upward interface, not yet accepted or refused (R29) -/
  request : Option Request
  /-- the `REFUSED` mark (R30) -/
  refused : Bool
  /-- the failure label of the operation that runs, or of the last one (R231, R237) -/
  failure : Option Failure
  /-- the results returned to the host, newest first (R31, R235) -/
  results : List OpResult
  /-- the event trace, newest event first (R31) -/
  trace : List Event
  /-- the caller's destination space (R50, R62) -/
  dest : Memory
  /-- the bytes the card is about to return, first first (R10: an input); beyond them the bytes are free values -/
  incoming : List Byte
  /-- the model's own: how many free values have been taken (`Config.freeByte`) -/
  free : Nat
deriving DecidableEq, Repr

/-- The state after reset (R33, R270), in the default configuration (R7). -/
def State.reset : State where
  params := Params.default
  cardType := 0x00#8
  sel := false
  work := Work.unwritten
  pos := .idle
  calls := []
  request := none
  refused := false
  failure := none
  results := []
  trace := []
  dest := []
  incoming := []
  free := 0

/-! ## Reasons to stop -/

/-- Why the machine stops. -/
inductive Fault where
  /-- Raised by a read of a working register that no step of the current operation has written (R27). SAFE: the
  spec asks for it, and no state that a run reaches raises it. -/
  | unwrittenRegister (r : WorkReg)
deriving DecidableEq, Repr

/-- Why a step has no meaning. -/
inductive Refusal where
  /-- Raised by an arm of `exec` without a meaning (none is left). SAFE: nothing is claimed of it. -/
  | notModelled (mnemonic : String)
  /-- Raised by a step whose dispatcher holds a frame that is none of the eight commands' (R94, D30). SAFE: the
  core forms no such frame. -/
  | unknownCommand
  /-- Raised by both host operations in a configuration the spec does not allow (R208, R161). SAFE: the spec says a
  model must refuse it. -/
  | illegalConfig
  /-- Raised by a card command while the dispatcher is at another command, or while an operation is between its
  commands (R94: `SEND_COMMAND` is not on the upward interface; R28: it nests only for the prefix). SAFE: no step
  runs a command other than the one the dispatcher is at. -/
  | dispatcherBusy
deriving DecidableEq, Repr

end Sys2Proof.Machine
end

