-- ==== Sys2Proof/Machine/Flags.lean ====
section
/-! DEFINITION. Flags and classifications: `STATUS` and the flags of `CARD_TYPE` (R21 to R24), the ways the core
looks at an R1 (R87, R88), the echo and OCR tests (R89, R90), the data token (R91), the CRC-16 (R93), the verdict of
an idle-exit attempt (R166, R170) and the codes and classes of the failure labels (R230, R231). -/

namespace Sys2Proof.Machine

/-! ## Classification -/

/-- `STATUS` of a classification (R24, R173). -/
def statusOf (cardType : Byte) : Status := if cardType = 0x00#8 then .notInitialized else .ready

/-- `STATUS`, computed from `CARD_TYPE` (R24). -/
def State.status (s : State) : Status := statusOf s.cardType

/-- The five values `CARD_TYPE` may hold (R22). -/
def cardTypes : List Byte := [0x00#8, 0x01#8, 0x02#8, 0x04#8, 0x0C#8]

/-- The card's variant in the typed view of R22. -/
inductive CardVariant where
  | none
  | mmc
  | sd1
  | sd2
deriving DecidableEq, Repr

/-- The typed view of a classification, `(variant, block)` (R22); no other value has one. -/
def cardView (cardType : Byte) : Option (CardVariant × Bool) :=
  if cardType = 0x00#8 then some (.none, false)
  else if cardType = 0x01#8 then some (.mmc, false)
  else if cardType = 0x02#8 then some (.sd1, false)
  else if cardType = 0x04#8 then some (.sd2, false)
  else if cardType = 0x0C#8 then some (.sd2, true)
  else .none

/-- The classification of an SD-v2 card from the first OCR byte: bit 6 is the block-addressed bit (R90, R168). -/
def classifyOcr (buf0 : Byte) : Byte := if buf0.getLsbD 6 then 0x0C#8 else 0x04#8

/-- The provisional classification and the poll command from the probe's response (R169). -/
def classifyProbe (res : Byte) : Byte × Byte :=
  if res ≤ 0x01#8 then (0x02#8, 0xE9#8) else (0x01#8, 0x41#8)

/-- The echo test (R89, R165): `BUF[0]` and `BUF[1]` are not examined. -/
def echoOk (buf2 buf3 : Byte) : Bool := buf2 = 0x01#8 && buf3 = 0xAA#8

/-! ## Responses -/

/-- "No response yet": bit 7 of a polled byte is set (R87, R88). -/
def noResponse (r1 : Byte) : Bool := r1.getLsbD 7

/-- The response poll ends: a valid R1, or the last of the attempts (R124). -/
def pollEnds (r1 n : Byte) : Bool := !noResponse r1 || n = 0#8

/-- The prefix's response aborts an application command (R121). -/
def prefixAborts (r1 : Byte) : Bool := r1 > 0x01#8

/-- What an idle-exit poll does after an attempt. -/
inductive PollVerdict where
  | again
  | success
  | timeout
deriving DecidableEq, Repr

/-- One turn of `while TMR != 0 and SEND_COMMAND(..) != 0x00: TMR <- TMR - 1` and of the test `TMR == 0` behind it
(R166, R170): the new `TMR` and the verdict. -/
def pollTurn (res : Byte) (tmr : BitVec 16) : BitVec 16 × PollVerdict :=
  if res = 0x00#8 then (tmr, if tmr = 0#16 then .timeout else .success)
  else (tmr - 1#16, if tmr - 1#16 = 0#16 then .timeout else .again)

/-! ## Read data -/

/-- The token detector's loop ends (R204). -/
def tokenEnds (rc : Byte) (bc : BitVec 16) : Bool := rc ≠ Config.tokenWait || bc = 0#16

/-- What a byte read where the data token is awaited means (R91). -/
inductive Token where
  | start
  | wait
  | bad
deriving DecidableEq, Repr

/-- The meaning of a token byte (R91). -/
def tokenOf (rc : Byte) : Token :=
  if rc = Config.tokenStart then .start else if rc = Config.tokenWait then .wait else .bad

/-- One of the eight turns of the CRC-16 (R93). -/
def crc16Bit (c : BitVec 16) : BitVec 16 :=
  if c.getLsbD 15 then (c <<< 1) ^^^ 0x1021#16 else c <<< 1

/-- One byte of the CRC-16 (R93). -/
def crc16Byte (c : BitVec 16) (b : Byte) : BitVec 16 :=
  [0, 1, 2, 3, 4, 5, 6, 7].foldl (fun c _ => crc16Bit c) (c ^^^ (b ++ 0x00#8))

/-- `crc16(bytes)`, initial value 0 (R93). -/
def crc16 (bytes : List Byte) : BitVec 16 := bytes.foldl crc16Byte 0x0000#16

/-! ## Failure labels -/

/-- The classes of R230. -/
inductive FailureClass where
  /-- (a) protocol rejection -/
  | protocol
  /-- (b) timeout -/
  | timeout
  /-- (c) malformed data token -/
  | malformedToken
  /-- (d) data integrity -/
  | dataIntegrity
deriving DecidableEq, Repr

/-- Class (a) or (b) by bit 7 of the response (R231). -/
def classOfResponse (res : Byte) : FailureClass := if noResponse res then .timeout else .protocol

/-- The class of a failure (R231). -/
def Failure.failureClass (f : Failure) : FailureClass :=
  match f with
  | .reset res => classOfResponse res
  | .echo _ _ _ _ => .protocol
  | .hcsTimeout _ => .timeout
  | .ocr res => classOfResponse res
  | .idleTimeout _ _ => .timeout
  | .blockLen res => classOfResponse res
  | .readCmd res _ => classOfResponse res
  | .tokenTimeout => .timeout
  | .tokenBad _ => .malformedToken
  | .dataCrc _ _ => .dataIntegrity

/-- The code of a failure label (R231). -/
def Failure.code (f : Failure) : Nat :=
  match f with
  | .reset _ => 1
  | .echo _ _ _ _ => 2
  | .hcsTimeout _ => 3
  | .ocr _ => 4
  | .idleTimeout _ _ => 5
  | .blockLen _ => 6
  | .readCmd _ _ => 7
  | .tokenTimeout => 8
  | .tokenBad _ => 9
  | .dataCrc _ _ => 10

end Sys2Proof.Machine
end

