-- ==== Sys2Proof/Machine/Operands.lean ====
section
/-! DEFINITION. The operand forms: the read window (R55, R201), the address-mode translator (R52), the legality of
a configuration (R161, R208), and the numbering of destination bytes (R51, R62). -/

namespace Sys2Proof.Machine

/-- The window precondition of `READ_PARTIAL` (R201): `OFS <= 511`, `1 <= CNT <= 512`, `OFS + CNT <= 512`, the sum
taken without wrapping. -/
def windowOk (ofs cnt : BitVec 10) : Bool :=
  ofs.toNat ≤ 511 && 1 ≤ cnt.toNat && cnt.toNat ≤ 512 && ofs.toNat + cnt.toNat ≤ 512

/-- Byte `j` of the sector stream lies in the window (R207). -/
def inWindow (ofs cnt : BitVec 10) (j : Nat) : Bool :=
  ofs.toNat ≤ j && j < ofs.toNat + cnt.toNat

/-- Address-mode translator (R52): the block number as it is when `CARD_TYPE[3]` is set, else
`(BLK * 512) mod 2^32`. -/
def translateBlock (blk : Word32) (cardType : Byte) : Word32 :=
  if cardType.getLsbD 3 then blk else blk * 512#32

/-- A legal configuration: the warm-up counts keep their minima (R161), and the CRC-16 check needs the inline copy
(R208). -/
def paramsLegal (p : Params) : Bool :=
  10 ≤ p.nWarmupDesel && 600 ≤ p.nWarmupSel && (!p.crc16Check || p.copyMode == .inlined)

/-- The address of position `i` of destination `dst` in the destination space (notes/assumptions/5.md): each
handle owns 512 positions, since a window has at most 512 bytes. -/
def destAddr (dst : Handle) (i : Nat) : Nat := dst * 512 + i

end Sys2Proof.Machine
end

