-- ==== Sys2Proof/Machine/Ops.lean ====
section
/-! DEFINITION. The shared operations: reading a working register, the destination memory, the bus primitives of R10,
the request interface (R29, R30), calling `SEND_COMMAND` (R120), the failure entry (R233) and the return to the host
(R235). -/

namespace Sys2Proof.Machine

/-- What a step or a meaning answers. -/
abbrev Out := Host.Outcome State Fault Refusal

/-- Goes on with `f` where `o` gave a next state. -/
def andThen (o : Out) (f : State → Out) : Out :=
  match o with
  | .next s => f s
  | .fault r => .fault r
  | .refused r => .refused r

/-- Reads a working register. One that holds no value faults: the spec gives "no value (unwritten)" as the reset value
(R33) and asks for the fault (R27; 93_implementation_defined.md row 7; D17). -/
def need {α : Type} (value : Option α) (name : WorkReg) (k : α → Out) : Out :=
  match value with
  | some v => k v
  | none => .fault (.unwrittenRegister name)

/-! ## Scratch list `D` -/

/-- `D[j] <- v` (R207). -/
def setEntry (d : List (Option Byte)) (j : Nat) (v : Byte) : List (Option Byte) :=
  match d, j with
  | [], 0 => [some v]
  | [], j + 1 => none :: setEntry [] j v
  | _ :: t, 0 => some v :: t
  | x :: t, j + 1 => x :: setEntry t j v

/-- The value `D[j]` holds, if any. -/
def entry (d : List (Option Byte)) (j : Nat) : Option Byte := (d[j]?).join

/-- The values of `D[from..from+count-1]`, if all of them hold one. -/
def entries (d : List (Option Byte)) (from_ : Nat) (count : Nat) : Option (List Byte) :=
  ((List.range' from_ count).map (entry d)).mapM id

/-! ## Destination memory -/

/-- The byte at an address; `none` where nothing has been written (notes/assumptions/4.md). -/
def Memory.read (m : Memory) (a : Nat) : Option Byte :=
  match m with
  | [] => none
  | (b, v) :: t => if b = a then some v else Memory.read t a

/-- Writes one byte and keeps the cells sorted without repeats. -/
def Memory.write (m : Memory) (a : Nat) (v : Byte) : Memory :=
  match m with
  | [] => [(a, v)]
  | (b, w) :: t =>
    if a < b then (a, v) :: (b, w) :: t
    else if a = b then (a, v) :: t
    else (b, w) :: Memory.write t a v

/-- Writes consecutive bytes from address `a` on. -/
def Memory.writeList (m : Memory) (a : Nat) (vs : List Byte) : Memory :=
  match vs with
  | [] => m
  | v :: t => Memory.writeList (Memory.write m a v) (a + 1) t

/-- Every address of `m` is above `a`, and the addresses rise strictly. -/
def Memory.above (m : Memory) (a : Nat) : Bool :=
  match m with
  | [] => true
  | (b, _) :: t => decide (a < b) && Memory.above t b

/-- The canonical form: addresses strictly rising. An unlisted address reads as no value, which no entry equals. -/
def Memory.wf (m : Memory) : Bool :=
  match m with
  | [] => true
  | (b, _) :: t => Memory.above t b

/-! ## Bus primitives (R10) -/

/-- Appends an event to the trace (R31). -/
def emit (e : Event) (s : State) : State := { s with trace := e :: s.trace }

/-- The next byte the card returns: the first of `incoming`, or a free value when none is listed (R10). -/
def draw (s : State) : Byte × State :=
  match s.incoming with
  | b :: t => (b, { s with incoming := t })
  | [] => (Config.freeByte s.free, { s with free := s.free + 1 })

/-- The next `n` bytes the card returns. -/
def drawMany (n : Nat) (s : State) : List Byte × State :=
  match n with
  | 0 => ([], s)
  | n + 1 => ((draw s).1 :: (drawMany n (draw s).2).1, (drawMany n (draw s).2).2)

/-- `Select(b)` (R10, R25). -/
def select (b : Bool) (s : State) : State := emit (.sel b) { s with sel := b }

/-- `i <- Exchange(o)`: the byte received and the state after (R10, R56). -/
def exchange (o : Byte) (s : State) : Byte × State := ((draw s).1, emit (.xchg o (draw s).1) (draw s).2)

/-- A dummy exchange: the received byte is discarded (D7). -/
def dummyExchange (s : State) : State := (exchange Config.dummy s).2

/-- `CopyWindow(dst, ofs, cnt)`: one `Copy` event. The collaborator, outside the core, consumes the 514 bytes of the
packet and writes the window to the destination; its exchanges are no events of the core (R205, R206;
notes/assumptions/6.md). -/
def copyWindow (ops : ReadOperands) (s : State) : State :=
  let s1 := emit (.copy ops.dst ops.ofs ops.cnt) s
  let p := drawMany Config.packetBytes s1
  { p.2 with
    dest := p.2.dest.writeList (destAddr ops.dst 0) ((p.1.drop ops.ofs.toNat).take ops.cnt.toNat) }

/-- `DstWrite(dst, i, v)`: one `Wr` event (R10, R207). -/
def dstWrite (dst : Handle) (i : Nat) (v : Byte) (s : State) : State :=
  emit (.wr dst i v) { s with dest := s.dest.write (destAddr dst i) v }

/-- `n` free values. -/
def freeBytes (start : Nat) (n : Nat) : List Byte := (List.range' start n).map Config.freeByte

/-- After an `ERROR` the destination's window holds any value in every position (R211; 93_implementation_defined.md
row 1). -/
def scrambleWindow (ops : ReadOperands) (s : State) : State :=
  { s with
    dest := s.dest.writeList (destAddr ops.dst 0) (freeBytes s.free ops.cnt.toNat)
    free := s.free + ops.cnt.toNat }

/-! ## Calling `SEND_COMMAND` (R120) -/

/-- The call of `SEND_COMMAND(CODE, ARG)`, its first event due: step A for an application command, else step B. -/
def callOf (mode : Crc7Mode) (code : Byte) (arg : Word32) : Call where
  frame := frameOf mode code arg
  pos := if isApp code then .prefixDue else .bracket 0

/-- Enters `SEND_COMMAND(CODE, ARG)`; no event is made. -/
def enterCall (code : Byte) (arg : Word32) (s : State) : State :=
  { s with calls := callOf s.params.crc7Mode code arg :: s.calls }

/-! ## Request interface (R29, R30) -/

/-- The core is busy: an operation or a dispatch is in progress (R29). -/
def busy (s : State) : Bool := s.pos ≠ .idle || s.calls ≠ []

/-- The host offers a request on the upward interface: an input, which lands between two steps (R29, R246). DESIGN
CHOICE, unsafe (notes/assumptions/21.md): a request still standing there, not yet taken by a step, is replaced, and is
then neither accepted nor refused; the spec does not say what becomes of it. -/
def offer (r : Request) (s : State) : State := { s with request := some r }

/-- A refusal (R30): no event, the offered request is dropped, the `REFUSED` mark is set. -/
def refuseRequest (s : State) : State := { s with request := none, refused := true }

/-- Acceptance of a request: the interface is taken, and no working register holds a value (R27, R29). -/
def acceptRequest (s : State) : State :=
  { s with request := none, failure := none, work := Work.unwritten }

/-- Both host operations are refused in a configuration the spec does not allow (R208, R161). -/
def underLegalParams (s : State) (k : Out) : Out :=
  if paramsLegal s.params then k else .refused .illegalConfig

/-! ## Failure entry and return -/

/-- Failure entry, the core's analogue of taking an exception (R233): the label is recorded, the position moves to
the operation's cleanup, `TY` is set to 0x00 in `INITIALIZE` and `RESULT` is `ERROR` in `READ_PARTIAL`. -/
def failEntry (f : Failure) (s : State) : State :=
  match s.pos with
  | .idle => { s with failure := some f }
  | .initOp _ => { s with failure := some f, work.ty := some 0x00#8, pos := .initOp .clean }
  | .readOp ops _ => { s with failure := some f, work.result := some .error, pos := .readOp ops .clean }

/-- Return to the host at the end of an operation (R235): the result is returned, the position is `IDLE`, and the
working registers other than `RESULT`, which the host reads, keep no value (R27; notes/assumptions/7.md). -/
def returnToHost (result : OpResult) (s : State) : State :=
  { s with
    results := result :: s.results
    pos := .idle
    work := { Work.unwritten with result := s.work.result } }

end Sys2Proof.Machine
end

