-- ==== Sys2Proof/Machine/Commands.lean ====
section
/-! DEFINITION. The command dispatcher `SEND_COMMAND` (R120 to R124), one event at a time, and the meanings of the
eight card commands (R128 to R135). -/

namespace Sys2Proof.Machine

/-! ## Events of the dispatcher -/

/-- The position after event `k` of the bracketing (R122). -/
def afterBracket (k : Fin 4) : CallPos :=
  match k with
  | 0 => .bracket 1
  | 1 => .bracket 2
  | 2 => .bracket 3
  | 3 => .frame 0

/-- Event `k` of the bracketing: `Sel(false)`, dummy exchange, `Sel(true)`, dummy exchange (R122). -/
def bracketEvent (k : Fin 4) (s : State) : State :=
  match k with
  | 0 => select false s
  | 1 => dummyExchange s
  | 2 => select true s
  | 3 => dummyExchange s

/-- Step B (R122), for the call with frame `w` above `rest`. -/
def bracketStep (w : Frame) (k : Fin 4) (rest : List Call) (s : State) : State :=
  { bracketEvent k s with calls := ⟨w, afterBracket k⟩ :: rest }

/-- Step C (R123): sends `Fk`, the received byte discarded; after `F5` the response poll begins with `N <- 10`
(R124). -/
def frameStep (w : Frame) (k : Fin 6) (rest : List Call) (s : State) : State :=
  let s1 := (exchange (frameByte w k) s).2
  if h : k.val + 1 < 6 then { s1 with calls := ⟨w, .frame ⟨k.val + 1, h⟩⟩ :: rest }
  else { s1 with calls := ⟨w, .poll⟩ :: rest, work.n := some Config.nRespPoll }

/-- Step D (R124): one poll read. `RES <- Exchange(DUMMY); N <- N - 1`; the dispatch returns when bit 7 is clear or
`N` is 0. -/
def pollStep (w : Frame) (rest : List Call) (s : State) : Out :=
  need s.work.n .n fun n =>
    let r := exchange Config.dummy s
    .next { r.2 with
      work.res := some r.1
      work.n := some (n - 1#8)
      calls := if pollEnds r.1 (n - 1#8) then rest else ⟨w, .poll⟩ :: rest }

/-- Step A (R121): the `CMD55` dispatch begins, with its own bracketing; the application command waits for it. -/
def prefixStep (w : Frame) (rest : List Call) (s : State) : State :=
  bracketStep (frameOf s.params.crc7Mode codeCmd55 0#32) 0 (⟨w, .prefixWait⟩ :: rest) s

/-- The event due in the innermost `SEND_COMMAND` (R120). Where none is due (no call, or a call whose prefix has
returned) nothing happens: the sequencer resolves the return (`settle`). -/
def dispatchEvent (s : State) : Out :=
  match s.calls with
  | [] => .next s
  | ⟨w, .prefixDue⟩ :: rest => .next (prefixStep w rest s)
  | ⟨_, .prefixWait⟩ :: _ => .next s
  | ⟨w, .bracket k⟩ :: rest => .next (bracketStep w k rest s)
  | ⟨w, .frame k⟩ :: rest => .next (frameStep w k rest s)
  | ⟨w, .poll⟩ :: rest => pollStep w rest s

/-- `SEND_COMMAND(CODE, ARG)` as an instruction: its next event. Where the dispatcher is at this command, the event
due; at `IDLE` with no dispatch in progress, the command begins (D30); elsewhere it is refused, since `SEND_COMMAND`
is called only by the sequencer's own pseudocode (R94, R120). -/
def dispatch (code : Byte) (arg : Word32) (s : State) : Out :=
  match s.calls with
  | [] => if s.pos = .idle then dispatchEvent (enterCall code arg s) else .refused .dispatcherBusy
  | c :: _ =>
    if c.frame = frameOf s.params.crc7Mode code arg then dispatchEvent s else .refused .dispatcherBusy

/-! ## Meanings of the card commands -/

/-- `CMD0` (R128): `RES <- SEND_COMMAND(0x40, 0x00000000)`. -/
def execCmd0 (s : State) : Out := dispatch codeCmd0 0#32 s

/-- `CMD1` (R129): `RES <- SEND_COMMAND(0x41, 0x00000000)`. -/
def execCmd1 (s : State) : Out := dispatch codeCmd1 0#32 s

/-- `CMD8` (R130): `RES <- SEND_COMMAND(0x48, 0x000001AA)`. -/
def execCmd8 (s : State) : Out := dispatch codeCmd8 Config.ifCondArg s

/-- `CMD16` (R131): `RES <- SEND_COMMAND(0x50, 0x00000200)`. -/
def execCmd16 (s : State) : Out := dispatch codeCmd16 Config.blockLenArg s

/-- `CMD17` (R132): `RES <- SEND_COMMAND(0x51, ADDR)`. -/
def execCmd17 (addr : Word32) (s : State) : Out := dispatch codeCmd17 addr s

/-- `CMD55` (R133): `RES <- SEND_COMMAND(0x77, 0x00000000)`. -/
def execCmd55 (s : State) : Out := dispatch codeCmd55 0#32 s

/-- `CMD58` (R134): `RES <- SEND_COMMAND(0x7A, 0x00000000)`. -/
def execCmd58 (s : State) : Out := dispatch codeCmd58 0#32 s

/-- `ACMD41` (R135): `RES <- SEND_COMMAND(0xE9, arg)`, step A and then its own frame. -/
def execAcmd41 (hcs : Bool) (s : State) : Out := dispatch codeAcmd41 (acmd41Arg hcs) s

end Sys2Proof.Machine
end

