-- ==== Sys2Proof/Machine/Initialization.lean ====
section
/-! DEFINITION. `INITIALIZE` (R160): its own events, the use it makes of each command's response, and its meaning. -/

namespace Sys2Proof.Machine

/-- Moves the sequencer of `INITIALIZE` to position `p`. -/
def gotoInit (p : InitPos) (s : State) : State := { s with pos := .initOp p }

/-- Moves to the return point `p` and enters `SEND_COMMAND(CODE, ARG)`. -/
def callFromInit (p : InitPos) (code : Byte) (arg : Word32) (s : State) : State :=
  enterCall code arg (gotoInit p s)

/-! ## Events -/

/-- Event `k` of the warm-up: `Sel(false)`, the deselected exchanges, `Sel(true)`, the selected exchanges (R161). -/
def warmEvent (k : Nat) (s : State) : State :=
  if k = 0 then select false s
  else if k = s.params.nWarmupDesel + 1 then select true s
  else dummyExchange s

/-- The warm-up (R161); after its last event `TY <- 0x00` (R162) and the reset command is due (R163). -/
def warmStep (k : Nat) (s : State) : State :=
  let s1 := warmEvent k s
  if k + 1 < s.params.nWarmupDesel + s.params.nWarmupSel + 2 then gotoInit (.warm (k + 1)) s1
  else callFromInit .cmd0 codeCmd0 0#32 { s1 with work.ty := some 0x00#8 }

/-- Reads one of the four trailing bytes into `BUF[k]` (R165, R167). -/
def readBuf (k : Fin 4) (s : State) : State :=
  let r := exchange Config.dummy s
  { r.2 with work.buf := r.2.work.buf.set k (some r.1) }

/-- The echo is checked (R165); when it is right the SD-v2 idle-exit poll begins with `TMR <- 25000` (R166). -/
def echoCheck (s : State) : Out :=
  need s.work.buf[0] .buf fun b0 =>
  need s.work.buf[1] .buf fun b1 =>
  need s.work.buf[2] .buf fun b2 =>
  need s.work.buf[3] .buf fun b3 =>
    if echoOk b2 b3 then
      .next (callFromInit .hcs codeAcmd41 Config.hcsArg { s with work.tmr := some Config.nIdlePoll })
    else .next (failEntry (.echo b0 b1 b2 b3) s)

/-- One echo byte (R165). -/
def echoStep (k : Fin 4) (s : State) : Out :=
  match k with
  | 0 => .next (gotoInit (.echo 1) (readBuf 0 s))
  | 1 => .next (gotoInit (.echo 2) (readBuf 1 s))
  | 2 => .next (gotoInit (.echo 3) (readBuf 2 s))
  | 3 => echoCheck (readBuf 3 s)

/-- The SD-v2 classifier (R168). -/
def classifySd2 (s : State) : Out :=
  need s.work.buf[0] .buf fun b0 => .next (gotoInit .clean { s with work.ty := some (classifyOcr b0) })

/-- One OCR byte (R167). -/
def ocrStep (k : Fin 4) (s : State) : Out :=
  match k with
  | 0 => .next (gotoInit (.ocrRead 1) (readBuf 0 s))
  | 1 => .next (gotoInit (.ocrRead 2) (readBuf 1 s))
  | 2 => .next (gotoInit (.ocrRead 3) (readBuf 2 s))
  | 3 => classifySd2 (readBuf 3 s)

/-- Cleanup (R172): `CARD_TYPE <- TY`, the one write of `CARD_TYPE`, and the first event of the bus release. -/
def initClean (s : State) : Out :=
  need s.work.ty .ty fun ty => .next (gotoInit .release (select false { s with cardType := ty }))

/-- The trailing dummy exchange, and the result (R172, R173). -/
def initRelease (s : State) : Out :=
  need s.work.ty .ty fun ty => .next (returnToHost (.initialized (statusOf ty)) (dummyExchange s))

/-- The event due in `INITIALIZE` at position `p` (R160). -/
def initEvent (p : InitPos) (s : State) : Out :=
  match p with
  | .warm k => .next (warmStep k s)
  | .cmd0 => dispatchEvent s
  | .cmd8 => dispatchEvent s
  | .echo k => echoStep k s
  | .hcs => dispatchEvent s
  | .ocr => dispatchEvent s
  | .ocrRead k => ocrStep k s
  | .probe => dispatchEvent s
  | .idlex => dispatchEvent s
  | .blen => dispatchEvent s
  | .clean => initClean s
  | .release => initRelease s

/-! ## Response use: what follows a returned `SEND_COMMAND`, without an event -/

/-- After `CMD0` (R163). -/
def afterCmd0 (res : Byte) (s : State) : State :=
  if res = 0x01#8 then callFromInit .cmd8 codeCmd8 Config.ifCondArg s else failEntry (.reset res) s

/-- After `CMD8` (R164). -/
def afterCmd8 (res : Byte) (s : State) : State :=
  if res = 0x01#8 then gotoInit (.echo 0) s else callFromInit .probe codeAcmd41 0#32 s

/-- After an `ACMD41` of the SD-v2 idle-exit poll (R166, R167). -/
def afterHcs (res : Byte) (tmr : BitVec 16) (s : State) : State :=
  let s1 := { s with work.tmr := some (pollTurn res tmr).1 }
  match (pollTurn res tmr).2 with
  | .again => callFromInit .hcs codeAcmd41 Config.hcsArg s1
  | .success => callFromInit .ocr codeCmd58 0#32 s1
  | .timeout => failEntry (.hcsTimeout res) s1

/-- After `CMD58` (R167). -/
def afterOcr (res : Byte) (s : State) : State :=
  if res = 0x00#8 then gotoInit (.ocrRead 0) s else failEntry (.ocr res) s

/-- After the probe (R169): the provisional type and the poll command; the idle-exit poll begins with
`TMR <- 25000` (R170). -/
def afterProbe (res : Byte) (s : State) : State :=
  let c := classifyProbe res
  callFromInit .idlex c.2 0#32
    { s with work.ty := some c.1, work.pcmd := some c.2, work.tmr := some Config.nIdlePoll }

/-- After an attempt of the SD-v1/MMC idle-exit poll (R170, R171). -/
def afterIdlex (res : Byte) (tmr : BitVec 16) (pcmd : Byte) (s : State) : State :=
  let s1 := { s with work.tmr := some (pollTurn res tmr).1 }
  match (pollTurn res tmr).2 with
  | .again => callFromInit .idlex pcmd 0#32 s1
  | .success => callFromInit .blen codeCmd16 Config.blockLenArg s1
  | .timeout => failEntry (.idleTimeout res pcmd) s1

/-- After `CMD16` (R171). -/
def afterBlen (res : Byte) (s : State) : State :=
  if res = 0x00#8 then gotoInit .clean s else failEntry (.blockLen res) s

/-- What `INITIALIZE` does when the command it called at return point `p` has returned (R163 to R171). -/
def initReturn (p : InitPos) (s : State) : Out :=
  match p with
  | .cmd0 => need s.work.res .res fun res => .next (afterCmd0 res s)
  | .cmd8 => need s.work.res .res fun res => .next (afterCmd8 res s)
  | .hcs =>
    need s.work.res .res fun res => need s.work.tmr .tmr fun tmr => .next (afterHcs res tmr s)
  | .ocr => need s.work.res .res fun res => .next (afterOcr res s)
  | .probe => need s.work.res .res fun res => .next (afterProbe res s)
  | .idlex =>
    need s.work.res .res fun res =>
    need s.work.tmr .tmr fun tmr =>
    need s.work.pcmd .pcmd fun pcmd => .next (afterIdlex res tmr pcmd s)
  | .blen => need s.work.res .res fun res => .next (afterBlen res s)
  | .warm _ => .next s
  | .echo _ => .next s
  | .ocrRead _ => .next s
  | .clean => .next s
  | .release => .next s

/-! ## Meaning -/

/-- Acceptance of `INITIALIZE`, with the first event of the warm-up (R29, R160, R161). -/
def acceptInit (s : State) : Out := initEvent (.warm 0) (gotoInit (.warm 0) (acceptRequest s))

/-- `INITIALIZE` (R160), its next event: at `IDLE` it is accepted; while it runs, the event due; a request offered
while the core is busy is refused (R29, R30). -/
def execInitialize (s : State) : Out :=
  underLegalParams s <|
    match s.pos with
    | .idle => if s.calls = [] then acceptInit s else .next (refuseRequest s)
    | .initOp p => if s.request = none then initEvent p s else .next (refuseRequest s)
    | .readOp _ _ => .next (refuseRequest s)

end Sys2Proof.Machine
end

