-- ==== Sys2Proof/Machine/Reader.lean ====
section
/-! DEFINITION. `READ_PARTIAL` (R200): its own events, the use it makes of the read command's response, and its
meaning. -/

namespace Sys2Proof.Machine

/-- Moves the sequencer of `READ_PARTIAL` to position `p`. -/
def gotoRead (ops : ReadOperands) (p : ReadPos) (s : State) : State := { s with pos := .readOp ops p }

/-! ## Events -/

/-- Where the copy step begins (R205, R207). -/
def copyStart (mode : CopyMode) : ReadPos :=
  match mode with
  | .delegated => .copy
  | .inlined => .packet 0

/-- What the detector does with the byte that ended its loop (R204). -/
def tokenDecide (ops : ReadOperands) (rc : Byte) (s : State) : State :=
  match tokenOf rc with
  | .start => gotoRead ops (copyStart s.params.copyMode) s
  | .wait => failEntry .tokenTimeout s
  | .bad => failEntry (.tokenBad rc) s

/-- One token read: `RC <- Exchange(DUMMY); BC <- BC - 1` (R204). -/
def tokenStep (ops : ReadOperands) (s : State) : Out :=
  need s.work.bc .bc fun bc =>
    let r := exchange Config.dummy s
    let s1 := { r.2 with work.rc := some r.1, work.bc := some (bc - 1#16) }
    .next (if tokenEnds r.1 (bc - 1#16) then tokenDecide ops r.1 s1 else s1)

/-- The delegated copy (R205): one `Copy` event, then `RESULT <- OK`. -/
def copyStep (ops : ReadOperands) (s : State) : State :=
  gotoRead ops .clean { copyWindow ops s with work.result := some .ok }

/-- The CRC-16 check (R208), only with `P_CRC16_CHECK`. -/
def crcCheck (s : State) : Out :=
  if s.params.crc16Check then
    need (entries s.work.d 0 512) .d fun bytes =>
    need (entry s.work.d 512) .d fun hi =>
    need (entry s.work.d 513) .d fun lo =>
      if crc16 bytes = hi ++ lo then .next s else .next (failEntry (.dataCrc (crc16 bytes) (hi ++ lo)) s)
  else .next s

/-- After the exchange and the write of `D[j]`: the next byte of the packet, or the end of the copy (R207). -/
def nextPacket (ops : ReadOperands) (j : Fin 514) (s : State) : Out :=
  if h : j.val + 1 < 514 then .next (gotoRead ops (.packet ⟨j.val + 1, h⟩) s)
  else crcCheck (gotoRead ops .clean { s with work.result := some .ok })

/-- One exchange of the inline copy: `D[j] <- Exchange(DUMMY)` (R207). -/
def packetStep (ops : ReadOperands) (j : Fin 514) (s : State) : Out :=
  let r := exchange Config.dummy s
  let s1 := { r.2 with work.d := setEntry r.2.work.d j.val r.1 }
  if inWindow ops.ofs ops.cnt j.val then .next (gotoRead ops (.write j) s1) else nextPacket ops j s1

/-- `DstWrite(DST, j - OFS, D[j])` (R207). -/
def writeStep (ops : ReadOperands) (j : Fin 514) (s : State) : Out :=
  need (entry s.work.d j.val) .d fun v => nextPacket ops j (dstWrite ops.dst (j.val - ops.ofs.toNat) v s)

/-- The destination after the operation (R211): unspecified in the whole window after an `ERROR`. -/
def destAfter (ops : ReadOperands) (result : ReadResult) (s : State) : State :=
  match result with
  | .ok => s
  | .error => scrambleWindow ops s

/-- The trailing dummy exchange, and the result (R209). -/
def readRelease (ops : ReadOperands) (s : State) : Out :=
  need s.work.result .result fun result =>
    .next (returnToHost (.read result) (destAfter ops result (dummyExchange s)))

/-- The event due in `READ_PARTIAL` at position `p` (R200). -/
def readEvent (ops : ReadOperands) (p : ReadPos) (s : State) : Out :=
  match p with
  | .cmd17 => dispatchEvent s
  | .token => tokenStep ops s
  | .copy => .next (copyStep ops s)
  | .packet j => packetStep ops j s
  | .write j => writeStep ops j s
  | .clean => .next (gotoRead ops .release (select false s))
  | .release => readRelease ops s

/-! ## Response use -/

/-- After `CMD17` (R203); on 0x00 the token detector begins with `BC <- 30000` (R204). -/
def afterCmd17 (ops : ReadOperands) (res : Byte) (addr : Word32) (s : State) : State :=
  if res = 0x00#8 then gotoRead ops .token { s with work.bc := some Config.nTokenPoll }
  else failEntry (.readCmd res addr) s

/-- What `READ_PARTIAL` does when the command it called at return point `p` has returned (R203). -/
def readReturn (ops : ReadOperands) (p : ReadPos) (s : State) : Out :=
  match p with
  | .cmd17 =>
    need s.work.res .res fun res =>
    need s.work.addr .addr fun addr => .next (afterCmd17 ops res addr s)
  | .token => .next s
  | .copy => .next s
  | .packet _ => .next s
  | .write _ => .next s
  | .clean => .next s
  | .release => .next s

/-! ## Meaning -/

/-- The state in which an accepted read has its read command due: `ADDR` translated from the `CARD_TYPE` of this
moment, `RESULT <- ERROR` (R200, R202). -/
def startRead (ops : ReadOperands) (s : State) : State :=
  let addr := translateBlock ops.blk s.cardType
  enterCall codeCmd17 addr
    (gotoRead ops .cmd17
      { acceptRequest s with
        work := { Work.unwritten with addr := some addr, result := some .error } })

/-- Acceptance of `READ_PARTIAL`, with the first event of its read command; a window outside one sector is refused
(R201). -/
def acceptRead (ops : ReadOperands) (s : State) : Out :=
  if windowOk ops.ofs ops.cnt then dispatchEvent (startRead ops s) else .next (refuseRequest s)

/-- `READ_PARTIAL` (R200), its next event: at `IDLE` it is accepted; while it runs, the event due; a request offered
while the core is busy is refused (R29, R30). -/
def execReadPartial (dst : Handle) (blk : Word32) (ofs cnt : BitVec 10) (s : State) : Out :=
  underLegalParams s <|
    match s.pos with
    | .idle => if s.calls = [] then acceptRead ⟨dst, blk, ofs, cnt⟩ s else .next (refuseRequest s)
    | .initOp _ => .next (refuseRequest s)
    | .readOp ops p =>
      if s.request = none ∧ ops = ⟨dst, blk, ofs, cnt⟩ then readEvent ops p s else .next (refuseRequest s)

end Sys2Proof.Machine
end

