-- ==== Sys2Proof/Machine/Sequencer.lean ====
section
/-! DEFINITION. The sequencer around the instructions: which instruction's event is due (the fetch), and what a
returned `SEND_COMMAND` leads to (R28, R121, R163 to R171, R203). -/

namespace Sys2Proof.Machine

/-! ## Returns -/

/-- The innermost call's prefix has returned with `RES` (R121): above 0x01 the application command returns it and
its frame is not sent; otherwise its bracketing is due. -/
def prefixReturn (s : State) : Out :=
  match s.calls with
  | ⟨w, .prefixWait⟩ :: rest =>
    need s.work.res .res fun res =>
      .next { s with calls := if prefixAborts res then rest else ⟨w, .bracket 0⟩ :: rest }
  | _ => .next s

/-- The operation goes on when no `SEND_COMMAND` is in progress. -/
def operationReturn (s : State) : Out :=
  match s.calls with
  | _ :: _ => .next s
  | [] =>
    match s.pos with
    | .idle => .next s
    | .initOp p => initReturn p s
    | .readOp ops p => readReturn ops p s

/-- What follows an event without an event of its own: returns are resolved, so that the position is again the point
whose next event is due (R28). -/
def settle (s : State) : Out := andThen (prefixReturn s) operationReturn

/-! ## Fetch -/

/-- What the sequencer finds due. -/
inductive Fetched where
  /-- nothing: `IDLE` with no request offered (R270) -/
  | nothing
  /-- an event of this instruction -/
  | instr (i : Instr)
  /-- an offered request with a reserved `OP` (R96) -/
  | reservedRequest
  /-- the dispatcher holds a frame of none of the eight commands (R94) -/
  | unknownFrame
deriving DecidableEq, Repr

/-- The offered request, decoded (R96). -/
def fetchRequest (r : Request) : Fetched :=
  match decodeRequest r with
  | .ok i => .instr i
  | .error _ => .reservedRequest

/-- The frame of the innermost `SEND_COMMAND`, decoded (R80 to R85). -/
def fetchFrame (mode : Crc7Mode) (w : Frame) : Fetched :=
  match decodeFrame mode w with
  | .ok i => .instr i
  | .error _ => .unknownFrame

/-- The instruction of the running operation. -/
def fetchOperation (p : Position) : Fetched :=
  match p with
  | .idle => .nothing
  | .initOp _ => .instr .hostInitialize
  | .readOp ops _ => .instr (.readPartial ops.dst ops.blk ops.ofs ops.cnt)

/-- The instruction whose event is due: an offered request is taken first (accepted or refused, R29); else the
innermost command in progress; else the running operation (R28). -/
def fetch (s : State) : Fetched :=
  match s.request with
  | some r => fetchRequest r
  | none =>
    match s.calls with
    | c :: _ => fetchFrame s.params.crc7Mode c.frame
    | [] => fetchOperation s.pos

/-- The call that the dispatcher begins for a frame placed from outside. -/
def callOfFrame (w : Frame) : Call where
  frame := w
  pos := if frameF0 w = 0x69#8 then .prefixDue else .bracket 0

end Sys2Proof.Machine
end

