-- ==== Sys2Proof/Machine/Dispatch.lean ====
section
/-! DEFINITION. The dispatch: one arm per instruction. `exec i s` makes the event of instruction `i` that is due in
`s`: an instruction of this core is a sequence of bus events, one a step (R28). -/

namespace Sys2Proof.Machine

def exec (i : Instr) (s : State) : Host.Outcome State Fault Refusal :=
  match i with
  | .cmd0 => Sys2Proof.Machine.execCmd0 s
  | .cmd1 => Sys2Proof.Machine.execCmd1 s
  | .cmd8 => Sys2Proof.Machine.execCmd8 s
  | .cmd16 => Sys2Proof.Machine.execCmd16 s
  | .cmd17 addr => Sys2Proof.Machine.execCmd17 addr s
  | .cmd55 => Sys2Proof.Machine.execCmd55 s
  | .cmd58 => Sys2Proof.Machine.execCmd58 s
  | .acmd41 hcs => Sys2Proof.Machine.execAcmd41 hcs s
  | .hostInitialize => Sys2Proof.Machine.execInitialize s
  | .readPartial dst blk ofs cnt => Sys2Proof.Machine.execReadPartial dst blk ofs cnt s

end Sys2Proof.Machine
end

