-- ==== Sys2Proof/Machine/Step.lean ====
section
/-! DEFINITION. One step: the event due (R28), or the refusal of an offered request (R30). -/

namespace Sys2Proof.Machine

/-- One step of the sequencer. It fetches the instruction whose event is due, makes the event, and resolves returns.
With nothing due the core stays as it is and makes no event (R270, R245). -/
def step (s : State) : Host.Outcome State Fault Refusal :=
  match fetch s with
  | .nothing => .next s
  | .instr i => andThen (exec i s) settle
  | .reservedRequest => .next (refuseRequest s)
  | .unknownFrame => .refused .unknownCommand

/-- `s` with the instruction of `nbits` bits `w` placed where the next step fetches it, from `IDLE`: a command frame
in the dispatcher, a host request on the upward interface (notes/assumptions/8.md). -/
def State.withFetchWord (s : State) (nbits w : Nat) : State :=
  if nbits = 48 then { s with pos := .idle, calls := [callOfFrame (BitVec.ofNat 48 w)], request := none }
  else { s with pos := .idle, calls := [], request := some (requestOfWord (w % 2 ^ nbits)) }

end Sys2Proof.Machine
end

