-- ==== Sys2Proof/Safety.lean ====
section
/-! DEFINITION. What claims are stated in: the invariant of the machine, the steps that follow one another, and the
counts of events (R126, R213, R281). -/

namespace Sys2Proof.Machine

/-! ## The invariant -/

/-- The register holds a value between `lo` and `hi`. -/
def between {w : Nat} (r : Option (BitVec w)) (lo hi : Nat) : Bool :=
  r.any fun v => decide (lo ≤ v.toNat) && decide (v.toNat ≤ hi)

/-- `N` holds a count of attempts left, wherever a poll read is due (R124). -/
def pollOk (c : Call) (s : State) : Bool := (c.pos != .poll) || between s.work.n 1 10

/-- The frame is one of the eight commands' (R82, R85). -/
def commandFrame (mode : Crc7Mode) (w : Frame) : Bool := (decodedInstr (decodeFrame mode w)).isSome

/-- The return stack (R28): no call; one call, whose prefix has not returned; or the prefix of an application
command above it. -/
def callsOk (s : State) : Bool :=
  match s.calls with
  | [] => true
  | [c] =>
    commandFrame s.params.crc7Mode c.frame && (c.pos != .prefixWait) &&
      ((c.pos != .prefixDue) || (frameF0 c.frame == 0x69#8)) && pollOk c s
  | [c, d] =>
    (c.frame == frameOf s.params.crc7Mode codeCmd55 0#32) && (c.pos != .prefixWait) && (c.pos != .prefixDue) &&
      pollOk c s && commandFrame s.params.crc7Mode d.frame && (frameF0 d.frame == 0x69#8) && (d.pos == .prefixWait)
  | _ => false

/-- The outermost `SEND_COMMAND` in progress is `SEND_COMMAND(CODE, ARG)`. -/
def calling (code : Byte) (arg : Word32) (s : State) : Bool :=
  s.calls.getLast?.any fun c => c.frame == frameOf s.params.crc7Mode code arg

/-- `BUF[0..k-1]` hold values. -/
def bufWritten (k : Fin 4) (s : State) : Bool :=
  (List.finRange 4).all fun j => decide (k ≤ j) || (s.work.buf[j]).isSome

/-- `D[0..k-1]` hold values. -/
def dWritten (k : Nat) (s : State) : Bool := (List.range k).all fun j => (entry s.work.d j).isSome

/-- No label is recorded yet, and the provisional classification is empty (R162, R237). -/
def initPending (s : State) : Bool := (s.work.ty == some 0x00#8) && (s.failure == none)

/-- What holds at position `p` of `INITIALIZE`: the command called, the registers a later step reads, and that a
label is recorded exactly with an empty classification (R160, R237). -/
def initOk (p : InitPos) (s : State) : Bool :=
  match p with
  | .warm k => s.calls.isEmpty && decide (k < s.params.nWarmupDesel + s.params.nWarmupSel + 2) && (s.failure == none)
  | .cmd0 => calling codeCmd0 0#32 s && initPending s
  | .cmd8 => calling codeCmd8 Config.ifCondArg s && initPending s
  | .echo k => s.calls.isEmpty && initPending s && bufWritten k s
  | .hcs => calling codeAcmd41 Config.hcsArg s && initPending s && between s.work.tmr 1 25000
  | .ocr => calling codeCmd58 0#32 s && initPending s
  | .ocrRead k => s.calls.isEmpty && initPending s && bufWritten k s
  | .probe => calling codeAcmd41 0#32 s && initPending s
  | .idlex =>
    (s.failure == none) && between s.work.tmr 1 25000 &&
      (((s.work.ty == some 0x02#8) && (s.work.pcmd == some codeAcmd41) && calling codeAcmd41 0#32 s) ||
        ((s.work.ty == some 0x01#8) && (s.work.pcmd == some codeCmd1) && calling codeCmd1 0#32 s))
  | .blen =>
    calling codeCmd16 Config.blockLenArg s && (s.failure == none) &&
      ((s.work.ty == some 0x02#8) || (s.work.ty == some 0x01#8))
  | .clean =>
    s.calls.isEmpty && s.work.ty.any fun ty => cardTypes.contains ty && (s.failure.isSome == (ty == 0x00#8))
  | .release =>
    s.calls.isEmpty && (s.work.ty == some s.cardType) && (s.failure.isSome == (s.cardType == 0x00#8))

/-- `RESULT` is still `ERROR` and no label is recorded (R200, R237). -/
def readPending (s : State) : Bool := (s.work.result == some .error) && (s.failure == none)

/-- A label is recorded exactly with the result `ERROR` (R209, R237). -/
def readDecided (s : State) : Bool := s.work.result.any fun r => s.failure.isSome == (r == .error)

/-- What holds at position `p` of `READ_PARTIAL` (R200). -/
def readOk (ops : ReadOperands) (p : ReadPos) (s : State) : Bool :=
  windowOk ops.ofs ops.cnt &&
  match p with
  | .cmd17 => s.work.addr.any (fun a => calling codeCmd17 a s) && readPending s
  | .token => s.calls.isEmpty && readPending s && between s.work.bc 1 30000
  | .copy => s.calls.isEmpty && readPending s && (s.params.copyMode == .delegated)
  | .packet j => s.calls.isEmpty && readPending s && (s.params.copyMode == .inlined) && dWritten j.val s
  | .write j =>
    s.calls.isEmpty && readPending s && (s.params.copyMode == .inlined) && dWritten (j.val + 1) s &&
      inWindow ops.ofs ops.cnt j.val
  | .clean => s.calls.isEmpty && readDecided s
  | .release => s.calls.isEmpty && readDecided s

/-- What holds at the position of the running operation. -/
def positionOk (s : State) : Bool :=
  match s.pos with
  | .idle => true
  | .initOp p => initOk p s
  | .readOp ops p => readOk ops p s

/-- The invariant of the machine: `CARD_TYPE` is one of its five values (R22), the return stack and the position
have the form R28 gives them, every register a later step reads holds a value (R27), and the destination memory is
in canonical form. It holds of whatever a run from reset reaches, and of a single card command run by itself. -/
def State.inv (s : State) : Bool :=
  cardTypes.contains s.cardType && callsOk s && positionOk s && s.dest.wf

/-! ## Commands -/

/-- The command code and the argument of a card command, written out from R82 and R85. -/
def commandOf (i : Instr) : Option (Byte × Word32) :=
  match i with
  | .cmd0 => some (0x40#8, 0x00000000#32)
  | .cmd1 => some (0x41#8, 0x00000000#32)
  | .cmd8 => some (0x48#8, 0x000001AA#32)
  | .cmd16 => some (0x50#8, 0x00000200#32)
  | .cmd17 addr => some (0x51#8, addr)
  | .cmd55 => some (0x77#8, 0x00000000#32)
  | .cmd58 => some (0x7A#8, 0x00000000#32)
  | .acmd41 true => some (0xE9#8, 0x40000000#32)
  | .acmd41 false => some (0xE9#8, 0x00000000#32)
  | .hostInitialize => none
  | .readPartial _ _ _ _ => none

/-! ## Runs -/

/-- `n` steps of the machine. -/
def runSteps (n : Nat) (s : State) : Out := Host.Core.run Sys2Proof.core n s

/-- Repeated turns of an idle-exit poll against the results of its attempts (R166, R170): the `TMR` and the verdict
when the poll ends, or after the last result. -/
def pollRun (results : List Byte) (tmr : BitVec 16) : BitVec 16 × PollVerdict :=
  match results with
  | [] => (tmr, .again)
  | r :: t =>
    match (pollTurn r tmr).2 with
    | .again => pollRun t (pollTurn r tmr).1
    | .success => ((pollTurn r tmr).1, .success)
    | .timeout => ((pollTurn r tmr).1, .timeout)

/-! ## Events -/

/-- `Sel` events of a trace (R281). -/
def selCount (tr : List Event) : Nat :=
  match tr with
  | [] => 0
  | .sel _ :: t => selCount t + 1
  | .xchg _ _ :: t => selCount t
  | .copy _ _ _ :: t => selCount t
  | .wr _ _ _ :: t => selCount t

/-- `Xchg` events of a trace (R281). -/
def xchgCount (tr : List Event) : Nat :=
  match tr with
  | [] => 0
  | .sel _ :: t => xchgCount t
  | .xchg _ _ :: t => xchgCount t + 1
  | .copy _ _ _ :: t => xchgCount t
  | .wr _ _ _ :: t => xchgCount t

/-- `Copy` events of a trace (R212, R213). -/
def copyCount (tr : List Event) : Nat :=
  match tr with
  | [] => 0
  | .sel _ :: t => copyCount t
  | .xchg _ _ :: t => copyCount t
  | .copy _ _ _ :: t => copyCount t + 1
  | .wr _ _ _ :: t => copyCount t

/-- `Wr` events of a trace (R207). -/
def wrCount (tr : List Event) : Nat :=
  match tr with
  | [] => 0
  | .sel _ :: t => wrCount t
  | .xchg _ _ :: t => wrCount t
  | .copy _ _ _ :: t => wrCount t
  | .wr _ _ _ :: t => wrCount t + 1

/-- The events of dummy exchanges that receive `bytes`, newest first. -/
def dummyEvents (bytes : List Byte) : List Event := (bytes.map (Event.xchg Config.dummy)).reverse

/-- The bracketing (R122), newest event first, with the two bytes it receives. -/
def bracketEvents (b0 b1 : Byte) : List Event :=
  [.xchg Config.dummy b1, .sel true, .xchg Config.dummy b0, .sel false]

/-- The six exchanges of a frame (R123), newest first, with the bytes received. -/
def frameEvents (w : Frame) (received : List Byte) : List Event :=
  (List.zipWith Event.xchg (frameBytes w) received).reverse

/-- The bytes of a response poll (R124): one to ten, all before the last with bit 7 set, and the last with bit 7
clear unless it is the tenth. -/
def pollBytes (bytes : List Byte) : Bool :=
  match bytes.getLast? with
  | none => false
  | some v =>
    decide (bytes.length ≤ 10) && bytes.dropLast.all noResponse && (!noResponse v || bytes.length == 10)

end Sys2Proof.Machine
end

