-- ==== Sys2Proof/Certificates/Slice0/Obligations.lean ====
section
/-! DEFINITION. The statements for the provers. Each docstring names the rules of spec/ it formalises; a byte received
is written `(draw s).1`, which `DrawTakesTheNextIncomingByte` states. -/

open Sys2Proof Sys2Proof.Machine

/-! ## Reset, fetch and step -/

/-- The state after reset: every value R33 and R270 give, and the parameters at the defaults of R7. Nothing is said of
the fields that are the model's own choice: `incoming`, `free`, `dest`, `failure` and `results`
(notes/assumptions/1.md, 2.md, 4.md, 14.md). -/
def Obligations.ResetHoldsTheSpecsValues : Prop :=
  State.reset.cardType = 0x00#8 ∧ State.reset.status = .notInitialized ∧ State.reset.sel = false ∧
  State.reset.pos = .idle ∧ State.reset.calls = [] ∧
  State.reset.work.res = none ∧ State.reset.work.n = none ∧ State.reset.work.tmr = none ∧
  State.reset.work.bc = none ∧ (∀ k : Fin 4, State.reset.work.buf[k] = none) ∧ State.reset.work.ty = none ∧
  State.reset.work.pcmd = none ∧ State.reset.work.addr = none ∧ State.reset.work.rc = none ∧
  State.reset.work.result = none ∧ (∀ j : Fin 514, entry State.reset.work.d j.val = none) ∧
  State.reset.request = none ∧ State.reset.refused = false ∧ State.reset.trace = [] ∧
  State.reset.params.crc7Mode = .table ∧ State.reset.params.copyMode = .delegated ∧
  State.reset.params.crc16Check = false ∧ State.reset.params.nWarmupDesel = 10 ∧
  State.reset.params.nWarmupSel = 600

/-- A step is `exec` of the instruction fetched, followed by `settle`, which resolves returned `SEND_COMMAND`s; an
offered request is fetched first, then the innermost command in progress, then the running operation; with nothing
due the core rests (R28, R29, R30, R94, R96, R270). That an offered request is fetched before an event that is due, in a
step of its own, is the model's choice (notes/assumptions/11.md), and so is that `settle` belongs to the step of the
event before it (notes/assumptions/15.md). -/
def Obligations.StepRunsTheDecodedInstruction : Prop :=
  ∀ s : State,
    (∀ r i, s.request = some r → decodeRequest r = .ok i → step s = andThen (exec i s) settle) ∧
    (∀ r e, s.request = some r → decodeRequest r = .error e →
      step s = .next { s with request := none, refused := true }) ∧
    (∀ c rest i, s.request = none → s.calls = c :: rest → decodeFrame s.params.crc7Mode c.frame = .ok i →
      step s = andThen (exec i s) settle) ∧
    (∀ c rest e, s.request = none → s.calls = c :: rest → decodeFrame s.params.crc7Mode c.frame = .error e →
      step s = .refused .unknownCommand) ∧
    (∀ p, s.request = none → s.calls = [] → s.pos = .initOp p →
      step s = andThen (exec .hostInitialize s) settle) ∧
    (∀ ops p, s.request = none → s.calls = [] → s.pos = .readOp ops p →
      step s = andThen (exec (.readPartial ops.dst ops.blk ops.ofs ops.cnt) s) settle) ∧
    (s.request = none → s.calls = [] → s.pos = .idle → step s = .next s)

/-- A received byte is the next one the card is about to return, or, with none listed, the next free value (R10;
notes/assumptions/1.md is the model's choice). -/
def Obligations.DrawTakesTheNextIncomingByte : Prop :=
  ∀ s : State,
    (∀ b l, s.incoming = b :: l → draw s = (b, { s with incoming := l })) ∧
    (s.incoming = [] → draw s = (Config.freeByte s.free, { s with free := s.free + 1 }))

/-! ## Encodings -/

/-- Words written out from the encoding tables of R80 to R85 and R96 decode to the instructions they stand for. -/
def Obligations.WordsOfTheSpecDecode : Prop :=
  decodeTableWord 48 0x400000000095 = some .cmd0 ∧
  decodeTableWord 48 0x48000001AA87 = some .cmd8 ∧
  decodeTableWord 48 0x510000140001 = some (.cmd17 0x00001400#32) ∧
  decodeTableWord 48 0x694000000001 = some (.acmd41 true) ∧
  decodeTableWord 48 0x690000000001 = some (.acmd41 false) ∧
  decodeTableWord 48 0x400000000001 = none ∧
  decodeTableWord 8 0b01 = some .hostInitialize ∧
  decodeTableWord 8 0b11 = none ∧
  decodeTableWord 8 0b00 = none

/-- Decoding the words of an instruction gives it back, in both `P_CRC7_MODE` values, with every operand at every
value (R80 to R85, R96). -/
def Obligations.DecodeOfEncodeIsTheInstruction : Prop :=
  ∀ (mode : Crc7Mode) (i : Instr), decode mode (encode mode i) = .ok i

/-- A frame that decodes is the frame of the instruction it decodes to: no bit of a frame is ignored, so no reserved
frame falls through to a neighbour (R82, R85, R94). -/
def Obligations.EncodeOfDecodeIsTheFrame : Prop :=
  ∀ (mode : Crc7Mode) (w : Frame) (i : Instr), decodeFrame mode w = .ok i → encode mode i = .frame w

/-- The model's own layout of a request as one number (notes/assumptions/3.md) holds every field of R96. -/
def Obligations.RequestWordHoldsEveryField : Prop :=
  ∀ r : Request, requestOfWord (wordOfRequest r) = r

/-- The six bytes of a frame, in the order sent: `CODE & 0x7F`, the argument most significant byte first, the trailing
byte (R54, R80, R81). In `TABLE` mode the trailing byte is chosen by `F0` alone: 0x95 for 0x40, 0x87 for 0x48, the
filler 0x01 for every other (R83); in `COMPUTED` mode it is the CRC-7 of the five bytes before it, above an end bit of 1
(R84). -/
def Obligations.FrameBytesAreCodeArgumentTrailer : Prop :=
  ∀ (mode : Crc7Mode) (code : Byte) (arg : Word32),
    frameBytes (frameOf mode code arg) =
      [code &&& 0x7F#8, arg.extractLsb' 24 8, arg.extractLsb' 16 8, arg.extractLsb' 8 8, arg.extractLsb' 0 8,
        trailer mode (code &&& 0x7F#8) arg] ∧
    (mode = .table → trailer mode (code &&& 0x7F#8) arg =
      if code &&& 0x7F#8 = 0x40#8 then 0x95#8 else if code &&& 0x7F#8 = 0x48#8 then 0x87#8 else 0x01#8) ∧
    (mode = .computed → trailer mode (code &&& 0x7F#8) arg =
      crc7 [code &&& 0x7F#8, arg.extractLsb' 24 8, arg.extractLsb' 16 8, arg.extractLsb' 8 8,
        arg.extractLsb' 0 8] ++ 1#1)

/-- Every frame the core sends with a fixed argument, in both `P_CRC7_MODE` values, and three frames of `CMD17`, written
out from the table of 95_test_vectors.md 2.1: the two modes agree for `CMD0` and `CMD8` and differ for the other frames
(R80, R82 to R85). -/
def Obligations.FixedFramesInBothCrc7Modes : Prop :=
  (encode .table .cmd0 = .frame 0x400000000095#48 ∧ encode .computed .cmd0 = .frame 0x400000000095#48) ∧
  (encode .table .cmd1 = .frame 0x410000000001#48 ∧ encode .computed .cmd1 = .frame 0x4100000000F9#48) ∧
  (encode .table .cmd8 = .frame 0x48000001AA87#48 ∧ encode .computed .cmd8 = .frame 0x48000001AA87#48) ∧
  (encode .table .cmd16 = .frame 0x500000020001#48 ∧ encode .computed .cmd16 = .frame 0x500000020015#48) ∧
  (encode .table .cmd55 = .frame 0x770000000001#48 ∧ encode .computed .cmd55 = .frame 0x770000000065#48) ∧
  (encode .table .cmd58 = .frame 0x7A0000000001#48 ∧ encode .computed .cmd58 = .frame 0x7A00000000FD#48) ∧
  (encode .table (.acmd41 false) = .frame 0x690000000001#48 ∧
    encode .computed (.acmd41 false) = .frame 0x6900000000E5#48) ∧
  (encode .table (.acmd41 true) = .frame 0x694000000001#48 ∧
    encode .computed (.acmd41 true) = .frame 0x694000000077#48) ∧
  (encode .table (.cmd17 0x00000007#32) = .frame 0x510000000701#48 ∧
    encode .computed (.cmd17 0x00000007#32) = .frame 0x51000000072B#48) ∧
  (encode .table (.cmd17 0x00001400#32) = .frame 0x510000140001#48 ∧
    encode .computed (.cmd17 0x00001400#32) = .frame 0x51000014007F#48) ∧
  (encode .table (.cmd17 0xFFFFFE00#32) = .frame 0x51FFFFFE0001#48 ∧
    encode .computed (.cmd17 0xFFFFFE00#32) = .frame 0x51FFFFFE009B#48)

/-! ## The card commands -/

/-- Step B for each of the eight card commands: `exec` answers the four events of the bracketing, whatever the select
line was (R122). -/
def Obligations.CommandBracketsItsFrame : Prop :=
  ∀ (i : Instr) (code : Byte) (arg : Word32) (s : State) (w : Frame) (rest : List Call),
    commandOf i = some (code, arg) → w = frameOf s.params.crc7Mode code arg →
    (s.calls = ⟨w, .bracket 0⟩ :: rest →
      exec i s = .next { s with
        sel := false, trace := .sel false :: s.trace, calls := ⟨w, .bracket 1⟩ :: rest }) ∧
    (s.calls = ⟨w, .bracket 1⟩ :: rest →
      exec i s = .next { (draw s).2 with
        trace := .xchg 0xFF#8 (draw s).1 :: s.trace, calls := ⟨w, .bracket 2⟩ :: rest }) ∧
    (s.calls = ⟨w, .bracket 2⟩ :: rest →
      exec i s = .next { s with
        sel := true, trace := .sel true :: s.trace, calls := ⟨w, .bracket 3⟩ :: rest }) ∧
    (s.calls = ⟨w, .bracket 3⟩ :: rest →
      exec i s = .next { (draw s).2 with
        trace := .xchg 0xFF#8 (draw s).1 :: s.trace, calls := ⟨w, .frame 0⟩ :: rest })

/-- Step C for each of the eight card commands: `exec` sends `F0` to `F5` in order, and after `F5` the response poll
begins with `N` at 10 (R80, R123, R124). -/
def Obligations.CommandSendsItsSixBytes : Prop :=
  ∀ (i : Instr) (code : Byte) (arg : Word32) (s : State) (w : Frame) (rest : List Call),
    commandOf i = some (code, arg) → w = frameOf s.params.crc7Mode code arg →
    (∀ k k' : Fin 6, k'.val = k.val + 1 → s.calls = ⟨w, .frame k⟩ :: rest →
      exec i s = .next { (draw s).2 with
        trace := .xchg ([code &&& 0x7F#8, arg.extractLsb' 24 8, arg.extractLsb' 16 8, arg.extractLsb' 8 8,
          arg.extractLsb' 0 8].getD k.val 0#8) (draw s).1 :: s.trace
        calls := ⟨w, .frame k'⟩ :: rest }) ∧
    (s.calls = ⟨w, .frame 5⟩ :: rest →
      exec i s = .next { (draw s).2 with
        trace := .xchg (trailer s.params.crc7Mode (code &&& 0x7F#8) arg) (draw s).1 :: s.trace
        calls := ⟨w, .poll⟩ :: rest
        work := { s.work with n := some 10#8 } })

/-- Step D for each of the eight card commands: `exec` makes one poll read, stores it in `RES` and counts `N` down; the
command returns when bit 7 is clear or `N` reaches 0, and is still polling otherwise; the select line is not touched
(R88, R124). -/
def Obligations.CommandPollsForItsResponse : Prop :=
  ∀ (i : Instr) (code : Byte) (arg : Word32) (s : State) (w : Frame) (rest : List Call) (n : Byte),
    commandOf i = some (code, arg) → w = frameOf s.params.crc7Mode code arg →
    s.calls = ⟨w, .poll⟩ :: rest → s.work.n = some n →
    ((draw s).1.getLsbD 7 = false ∨ n = 1#8 →
      exec i s = .next { (draw s).2 with
        work := { s.work with res := some (draw s).1, n := some (n - 1#8) }
        trace := .xchg 0xFF#8 (draw s).1 :: s.trace
        calls := rest }) ∧
    ((draw s).1.getLsbD 7 = true ∧ n ≠ 1#8 →
      exec i s = .next { (draw s).2 with
        work := { s.work with res := some (draw s).1, n := some (n - 1#8) }
        trace := .xchg 0xFF#8 (draw s).1 :: s.trace
        calls := ⟨w, .poll⟩ :: rest })

/-- A card command begins, from `IDLE` with no dispatch in progress, with `Sel(false)`: of its own bracketing, or, for
`ACMD41`, of the bracketing of the `CMD55` it waits for (R120, R121, R122). Running a card command by itself is the
liberty D30 gives a model (notes/assumptions/12.md). -/
def Obligations.CommandBeginsWithDeselect : Prop :=
  ∀ (i : Instr) (code : Byte) (arg : Word32) (s : State),
    commandOf i = some (code, arg) → s.pos = .idle → s.calls = [] →
    exec i s = .next { s with
      sel := false
      trace := .sel false :: s.trace
      calls :=
        if code = 0xE9#8 then
          [⟨frameOf s.params.crc7Mode 0x77#8 0#32, .bracket 1⟩, ⟨frameOf s.params.crc7Mode code arg, .prefixWait⟩]
        else [⟨frameOf s.params.crc7Mode code arg, .bracket 1⟩] }

/-- Step A for `ACMD41` inside an operation: `exec` begins the complete `CMD55` dispatch above it (R121). -/
def Obligations.ApplicationCommandBeginsItsPrefix : Prop :=
  ∀ (hcs : Bool) (s : State) (w : Frame) (rest : List Call),
    w = frameOf s.params.crc7Mode 0xE9#8 (acmd41Arg hcs) → s.calls = ⟨w, .prefixDue⟩ :: rest →
    exec (.acmd41 hcs) s = .next { s with
      sel := false
      trace := .sel false :: s.trace
      calls := ⟨frameOf s.params.crc7Mode 0x77#8 0#32, .bracket 1⟩ :: ⟨w, .prefixWait⟩ :: rest }

/-- The decision after the prefix: a response above 0x01 ends the application command, which returns that response;
0x00 and 0x01 make the bracketing of its own frame due (R121). -/
def Obligations.PrefixResponseDecides : Prop :=
  ∀ (s : State) (w : Frame) (rest : List Call) (res : Byte),
    s.calls = ⟨w, .prefixWait⟩ :: rest → s.work.res = some res →
    (1 < res.toNat → settle s = operationReturn { s with calls := rest }) ∧
    (res.toNat ≤ 1 → settle s = .next { s with calls := ⟨w, .bracket 0⟩ :: rest })

/-- A whole dispatch of a command without prefix, wherever it is called (inside `INITIALIZE`, inside `READ_PARTIAL`, as
the prefix of an application command, or by itself, which is the liberty D30 gives, notes/assumptions/12.md), for every
sequence of bytes the card returns: `4 + 6 + k` steps make the bracketing, the frame and `k` poll reads, `RES` is the
last byte read, `N` is `10 - k`, the card stays selected, and nothing else changes (R120, R122 to R124, R126). The last of
these steps resolves the return, in the operation where no other command waits; that the return belongs to that step is
the model's choice (notes/assumptions/15.md). -/
def Obligations.PlainCommandRunsToItsResponse : Prop :=
  ∀ (i : Instr) (code : Byte) (arg : Word32) (s u : State) (b0 b1 : Byte) (g polls tl : List Byte) (rest : List Call),
    commandOf i = some (code, arg) → isApp code = false →
    s.request = none → s.calls = callOf s.params.crc7Mode code arg :: rest →
    g.length = 6 → pollBytes polls = true → s.incoming = [b0, b1] ++ g ++ polls ++ tl →
    u = { s with
      sel := true
      calls := rest
      incoming := tl
      work := { s.work with res := polls.getLast?, n := some (10#8 - BitVec.ofNat 8 polls.length) }
      trace := dummyEvents polls ++ frameEvents (frameOf s.params.crc7Mode code arg) g ++ bracketEvents b0 b1 ++
        s.trace } →
    runSteps (10 + polls.length) s = settle u ∧
    (rest = [] → settle u = operationReturn u) ∧
    (rest = [] → s.pos = .idle → settle u = .next u)

/-- The prefix law, first half, wherever the application command is called (inside `INITIALIZE`, or by itself, which is
the liberty D30 gives, notes/assumptions/12.md): an application command whose `CMD55` returns more than 0x01 makes the
`CMD55` dispatch and nothing else, and returns that response to the operation, or at `IDLE` ends with it (R121, R126,
R127). That the return belongs to the step of the last event is the model's choice (notes/assumptions/15.md). -/
def Obligations.RejectedPrefixSendsOneFrame : Prop :=
  ∀ (hcs : Bool) (s u : State) (b0 b1 v : Byte) (g polls tl : List Byte) (rest : List Call),
    s.request = none → s.calls = callOf s.params.crc7Mode 0xE9#8 (acmd41Arg hcs) :: rest →
    g.length = 6 → pollBytes polls = true → polls.getLast? = some v → 1 < v.toNat →
    s.incoming = [b0, b1] ++ g ++ polls ++ tl →
    u = { s with
      sel := true
      calls := rest
      incoming := tl
      work := { s.work with res := some v, n := some (10#8 - BitVec.ofNat 8 polls.length) }
      trace := dummyEvents polls ++ frameEvents (frameOf s.params.crc7Mode 0x77#8 0#32) g ++ bracketEvents b0 b1 ++
        s.trace } →
    runSteps (10 + polls.length) s = operationReturn u ∧
    (rest = [] → s.pos = .idle → operationReturn u = .next u)

/-- The prefix law, second half, wherever the application command is called (inside `INITIALIZE`, or by itself, which is
the liberty D30 gives, notes/assumptions/12.md): when `CMD55` returns 0x00 or 0x01, a second bracketing and the intended
frame follow, and its response is returned to the operation, or at `IDLE` ends the command (R121, R126, R127). That the
return belongs to the step of the last event is the model's choice (notes/assumptions/15.md). -/
def Obligations.AcceptedPrefixSendsBothFrames : Prop :=
  ∀ (hcs : Bool) (s u : State) (a0 a1 v b0 b1 : Byte) (g1 polls1 g2 polls2 tl : List Byte) (rest : List Call),
    s.request = none → s.calls = callOf s.params.crc7Mode 0xE9#8 (acmd41Arg hcs) :: rest →
    g1.length = 6 → pollBytes polls1 = true → polls1.getLast? = some v → v.toNat ≤ 1 →
    g2.length = 6 → pollBytes polls2 = true →
    s.incoming = [a0, a1] ++ g1 ++ polls1 ++ ([b0, b1] ++ g2 ++ polls2 ++ tl) →
    u = { s with
      sel := true
      calls := rest
      incoming := tl
      work := { s.work with res := polls2.getLast?, n := some (10#8 - BitVec.ofNat 8 polls2.length) }
      trace := dummyEvents polls2 ++ frameEvents (frameOf s.params.crc7Mode 0xE9#8 (acmd41Arg hcs)) g2 ++
        bracketEvents b0 b1 ++ dummyEvents polls1 ++ frameEvents (frameOf s.params.crc7Mode 0x77#8 0#32) g1 ++
        bracketEvents a0 a1 ++ s.trace } →
    runSteps (20 + polls1.length + polls2.length) s = settle u ∧
    (rest = [] → settle u = operationReturn u) ∧
    (rest = [] → s.pos = .idle → settle u = .next u)

/-- The frame of the eight card commands: `RES`, `N`, the select line, the trace, the return stack and the bytes taken
from the card may change, and nothing else does; the trace grows by at most one event (R120, R128 to R135). -/
def Obligations.CardCommandFrame : Prop :=
  ∀ (i : Instr) (s t : State), (commandOf i).isSome = true → exec i s = .next t →
    t.params = s.params ∧ t.cardType = s.cardType ∧ t.pos = s.pos ∧ t.request = s.request ∧
    t.refused = s.refused ∧ t.failure = s.failure ∧ t.results = s.results ∧
    t.work = { s.work with res := t.work.res, n := t.work.n } ∧
    (∀ a, t.dest.read a = s.dest.read a) ∧
    (t.trace = s.trace ∨ ∃ e, t.trace = e :: s.trace)

/-! ## INITIALIZE -/

/-- `INITIALIZE` is accepted at `IDLE` in a legal configuration: no working register holds a value, no label is
recorded (a label is the model's record, notes/assumptions/14.md), and the first event is `Sel(false)`, whatever the
select line was (R27, R29, R160, R161). -/
def Obligations.InitializeIsAccepted : Prop :=
  ∀ s : State, s.pos = .idle → s.calls = [] → paramsLegal s.params = true →
    exec .hostInitialize s = .next { s with
      request := none
      failure := none
      work := Work.unwritten
      pos := .initOp (.warm 1)
      sel := false
      trace := .sel false :: s.trace }

/-- The warm-up, whole, for every sequence of bytes the card returns: from the acceptance, `Sel(false)`,
`N_WARMUP_DESEL` dummy exchanges, `Sel(true)`, `N_WARMUP_SEL` dummy exchanges, then `TY` is 0x00 and `CMD0` is due
(R161, R162, R163). -/
def Obligations.WarmUpMakesItsExchanges : Prop :=
  ∀ (s : State) (l1 l2 tl : List Byte),
    s.pos = .idle → s.calls = [] → s.request = some ⟨0b01#2, 0, 0#32, 0#10, 0#10⟩ → paramsLegal s.params = true →
    l1.length = s.params.nWarmupDesel → l2.length = s.params.nWarmupSel → s.incoming = l1 ++ l2 ++ tl →
    runSteps (s.params.nWarmupDesel + s.params.nWarmupSel + 2) s = .next { s with
      request := none
      failure := none
      work := { Work.unwritten with ty := some 0x00#8 }
      pos := .initOp .cmd0
      calls := [callOf s.params.crc7Mode 0x40#8 0#32]
      sel := true
      incoming := tl
      trace := dummyEvents l2 ++ (.sel true :: (dummyEvents l1 ++ (.sel false :: s.trace))) }

/-- Reset (R163): at this position the command sent is `CMD0` with argument 0; when it has returned `RES`, 0x01 leads to
the version probe, and every other value, a rejection or a timeout, to cleanup with an empty classification and
`F_RESET`, no further command being due. -/
def Obligations.ResetResponseDecides : Prop :=
  (∀ s : State, s.inv = true → s.pos = .initOp .cmd0 →
    (s.calls.getLast?).map (·.frame) = some (frameOf s.params.crc7Mode 0x40#8 0#32)) ∧
  ∀ (s : State) (v : Byte), s.pos = .initOp .cmd0 → s.calls = [] → s.work.res = some v →
    (v = 0x01#8 → settle s = .next { s with
      pos := .initOp .cmd8, calls := [callOf s.params.crc7Mode 0x48#8 0x000001AA#32] }) ∧
    (v ≠ 0x01#8 → settle s = .next { s with
      pos := .initOp .clean, failure := some (.reset v), work := { s.work with ty := some 0x00#8 }, calls := [] })

/-- Version probe (R164): at this position the command sent is `CMD8` with argument 0x1AA; when it has returned `RES`, 0x01
leads to the echo read, and every other value to the SD-v1/MMC probe, which is no failure. -/
def Obligations.VersionProbeDecides : Prop :=
  (∀ s : State, s.inv = true → s.pos = .initOp .cmd8 →
    (s.calls.getLast?).map (·.frame) = some (frameOf s.params.crc7Mode 0x48#8 0x000001AA#32)) ∧
  ∀ (s : State) (v : Byte), s.pos = .initOp .cmd8 → s.calls = [] → s.work.res = some v →
    (v = 0x01#8 → settle s = .next { s with pos := .initOp (.echo 0) }) ∧
    (v ≠ 0x01#8 → settle s = .next { s with
      pos := .initOp .probe, calls := [callOf s.params.crc7Mode 0xE9#8 0#32], failure := s.failure })

/-- The echo read (R165): four dummy exchanges into `BUF`; the fourth is followed by the check of `BUF[2]` and `BUF[3]`
alone, and leads to the SD-v2 idle-exit poll with `TMR` at 25000 (R166) or to cleanup with `F_ECHO`. -/
def Obligations.EchoIsReadAndChecked : Prop :=
  ∀ s : State, paramsLegal s.params = true → s.request = none → s.calls = [] →
    (∀ k k' : Fin 4, k'.val = k.val + 1 → s.pos = .initOp (.echo k) →
      exec .hostInitialize s = .next { (draw s).2 with
        trace := .xchg 0xFF#8 (draw s).1 :: s.trace
        work := { s.work with buf := s.work.buf.set k (some (draw s).1) }
        pos := .initOp (.echo k') }) ∧
    (∀ b0 b1 b2, s.pos = .initOp (.echo 3) →
      s.work.buf[0] = some b0 → s.work.buf[1] = some b1 → s.work.buf[2] = some b2 →
      (b2 = 0x01#8 ∧ (draw s).1 = 0xAA#8 →
        exec .hostInitialize s = .next { (draw s).2 with
          trace := .xchg 0xFF#8 (draw s).1 :: s.trace
          work := { s.work with buf := s.work.buf.set 3 (some (draw s).1), tmr := some 25000#16 }
          pos := .initOp .hcs
          calls := [callOf s.params.crc7Mode 0xE9#8 0x40000000#32] }) ∧
      (¬ (b2 = 0x01#8 ∧ (draw s).1 = 0xAA#8) →
        exec .hostInitialize s = .next { (draw s).2 with
          trace := .xchg 0xFF#8 (draw s).1 :: s.trace
          work := { s.work with buf := s.work.buf.set 3 (some (draw s).1), ty := some 0x00#8 }
          failure := some (.echo b0 b1 b2 (draw s).1)
          pos := .initOp .clean }))

/-- The SD-v2 idle-exit poll (R166, R167): 0x00 ends it and `CMD58` is due; any other result counts `TMR` down, and
leads to another `ACMD41` with `HCS_ARG`, or at 0 to cleanup with `F_HCS_TIMEOUT`. -/
def Obligations.HcsPollDecides : Prop :=
  ∀ (s : State) (v : Byte) (tmr : BitVec 16),
    s.pos = .initOp .hcs → s.calls = [] → s.work.res = some v → s.work.tmr = some tmr → tmr ≠ 0#16 →
    (v = 0x00#8 → settle s = .next { s with
      pos := .initOp .ocr, calls := [callOf s.params.crc7Mode 0x7A#8 0#32] }) ∧
    (v ≠ 0x00#8 ∧ tmr ≠ 1#16 → settle s = .next { s with
      work := { s.work with tmr := some (tmr - 1#16) }
      calls := [callOf s.params.crc7Mode 0xE9#8 0x40000000#32] }) ∧
    (v ≠ 0x00#8 ∧ tmr = 1#16 → settle s = .next { s with
      pos := .initOp .clean
      failure := some (.hcsTimeout v)
      work := { s.work with tmr := some 0#16, ty := some 0x00#8 } })

/-- The use of `CMD58`'s response and the SD-v2 classifier (R167, R168): on 0x00 four dummy exchanges into `BUF`, the
fourth followed by `TY <- 0x0C` if bit 6 of `BUF[0]` is 1, else 0x04; any other response leads to cleanup with `F_OCR`
and no OCR byte is read. -/
def Obligations.OcrIsReadAndClassified : Prop :=
  ∀ s : State, paramsLegal s.params = true → s.request = none → s.calls = [] →
    (∀ v, s.pos = .initOp .ocr → s.work.res = some v →
      (v = 0x00#8 → settle s = .next { s with pos := .initOp (.ocrRead 0) }) ∧
      (v ≠ 0x00#8 → settle s = .next { s with
        pos := .initOp .clean, failure := some (.ocr v), work := { s.work with ty := some 0x00#8 } })) ∧
    (∀ k k' : Fin 4, k'.val = k.val + 1 → s.pos = .initOp (.ocrRead k) →
      exec .hostInitialize s = .next { (draw s).2 with
        trace := .xchg 0xFF#8 (draw s).1 :: s.trace
        work := { s.work with buf := s.work.buf.set k (some (draw s).1) }
        pos := .initOp (.ocrRead k') }) ∧
    (∀ b0, s.pos = .initOp (.ocrRead 3) → s.work.buf[0] = some b0 →
      exec .hostInitialize s = .next { (draw s).2 with
        trace := .xchg 0xFF#8 (draw s).1 :: s.trace
        work := { s.work with
          buf := s.work.buf.set 3 (some (draw s).1)
          ty := some (if b0.getLsbD 6 then 0x0C#8 else 0x04#8) }
        pos := .initOp .clean })

/-- The probe (R169): a result of at most 0x01 classifies SD-v1 with `ACMD41` as poll command, every other result MMC-v3
with `CMD1`; the idle-exit poll begins with `TMR` at 25000 (R170). -/
def Obligations.ProbeClassifies : Prop :=
  ∀ (s : State) (v : Byte), s.pos = .initOp .probe → s.calls = [] → s.work.res = some v →
    (v.toNat ≤ 1 → settle s = .next { s with
      pos := .initOp .idlex
      work := { s.work with ty := some 0x02#8, pcmd := some 0xE9#8, tmr := some 25000#16 }
      calls := [callOf s.params.crc7Mode 0xE9#8 0#32] }) ∧
    (1 < v.toNat → settle s = .next { s with
      pos := .initOp .idlex
      work := { s.work with ty := some 0x01#8, pcmd := some 0x41#8, tmr := some 25000#16 }
      calls := [callOf s.params.crc7Mode 0x41#8 0#32] })

/-- The SD-v1/MMC idle-exit poll (R170, R171): 0x00 ends it and `CMD16` is due; any other result counts `TMR` down, and
leads to another dispatch of `PCMD`, or at 0 to cleanup with an empty classification and `F_IDLE_TIMEOUT`. -/
def Obligations.IdleExitPollDecides : Prop :=
  ∀ (s : State) (v pcmd : Byte) (tmr : BitVec 16),
    s.pos = .initOp .idlex → s.calls = [] → s.work.res = some v → s.work.tmr = some tmr → tmr ≠ 0#16 →
    s.work.pcmd = some pcmd →
    (v = 0x00#8 → settle s = .next { s with
      pos := .initOp .blen, calls := [callOf s.params.crc7Mode 0x50#8 0x00000200#32] }) ∧
    (v ≠ 0x00#8 ∧ tmr ≠ 1#16 → settle s = .next { s with
      work := { s.work with tmr := some (tmr - 1#16) }
      calls := [callOf s.params.crc7Mode pcmd 0#32] }) ∧
    (v ≠ 0x00#8 ∧ tmr = 1#16 → settle s = .next { s with
      pos := .initOp .clean
      failure := some (.idleTimeout v pcmd)
      work := { s.work with tmr := some 0#16, ty := some 0x00#8 } })

/-- The use of `CMD16`'s response (R171): 0x00 keeps the provisional type, every other value empties it with
`F_BLOCKLEN`. -/
def Obligations.BlockLengthResponseDecides : Prop :=
  ∀ (s : State) (v : Byte), s.pos = .initOp .blen → s.calls = [] → s.work.res = some v →
    (v = 0x00#8 → settle s = .next { s with pos := .initOp .clean }) ∧
    (v ≠ 0x00#8 → settle s = .next { s with
      pos := .initOp .clean, failure := some (.blockLen v), work := { s.work with ty := some 0x00#8 } })

/-- Cleanup and result (R125, R172, R173): `CARD_TYPE <- TY` with `Sel(false)`, then one dummy exchange, and the result
is `READY` exactly for a classification other than 0x00. The working registers lose their values at the end: the
model's choice (notes/assumptions/7.md). -/
def Obligations.InitializeStoresAndReleases : Prop :=
  ∀ (s : State) (ty : Byte), paramsLegal s.params = true → s.request = none → s.calls = [] →
    s.work.ty = some ty →
    (s.pos = .initOp .clean → exec .hostInitialize s = .next { s with
      cardType := ty, sel := false, trace := .sel false :: s.trace, pos := .initOp .release }) ∧
    (s.pos = .initOp .release → exec .hostInitialize s = .next { (draw s).2 with
      trace := .xchg 0xFF#8 (draw s).1 :: s.trace
      pos := .idle
      results := .initialized (if ty = 0x00#8 then .notInitialized else .ready) :: s.results
      work := { Work.unwritten with result := s.work.result } })

/-- `STATUS` (R24, R173): in every state it is `READY` exactly when `CARD_TYPE` is not 0x00, and `NOT_INITIALIZED`
otherwise; the step that ends an `INITIALIZE` returns the `STATUS` the machine has afterwards. -/
def Obligations.StatusFollowsCardTypeAndIsTheResult : Prop :=
  (∀ s : State, (s.status = .ready ↔ s.cardType ≠ 0x00#8) ∧ (s.status = .notInitialized ↔ s.cardType = 0x00#8)) ∧
  ∀ s : State, s.inv = true → paramsLegal s.params = true → s.request = none → s.pos = .initOp .release →
    ∃ t, step s = .next t ∧ t.pos = .idle ∧ t.results = .initialized t.status :: s.results

/-- The turns of an idle-exit poll (R174): if attempt `k` is the first to return 0x00, the poll succeeds with `TMR` at
`25001 - k`; if 25000 attempts return other values, it times out with `TMR` at 0; fewer leave it going. -/
def Obligations.IdleExitPollLaw : Prop :=
  ∀ bad : List Byte, (∀ r ∈ bad, r ≠ 0x00#8) →
    (∀ more, bad.length < 25000 →
      pollRun (bad ++ 0x00#8 :: more) 25000#16 = (25000#16 - BitVec.ofNat 16 bad.length, .success)) ∧
    (∀ more, bad.length = 25000 → pollRun (bad ++ more) 25000#16 = (0#16, .timeout)) ∧
    (bad.length < 25000 → pollRun bad 25000#16 = (25000#16 - BitVec.ofNat 16 bad.length, .again))

/-- The frame of `INITIALIZE`: parameters and destination memory are never written; `CARD_TYPE` only at the cleanup
position; the results only at the release; `REFUSED` only where the request is refused, and then nothing else but the
request changes; while the operation runs on, `ADDR`, `RC`, `BC`, `RESULT` and `D` keep their values (R23, R30, R160,
R172). -/
def Obligations.InitializeFrame : Prop :=
  ∀ s t : State, exec .hostInitialize s = .next t →
    t.params = s.params ∧
    (∀ a, t.dest.read a = s.dest.read a) ∧
    (s.pos ≠ .initOp .clean → t.cardType = s.cardType) ∧
    (s.pos ≠ .initOp .release → t.results = s.results) ∧
    (s.pos = .idle ∨ s.pos = .initOp .release ∨
      t.work.addr = s.work.addr ∧ t.work.rc = s.work.rc ∧ t.work.bc = s.work.bc ∧
        t.work.result = s.work.result ∧ t.work.d = s.work.d) ∧
    (t.refused = s.refused ∨ t = { s with request := none, refused := true })

/-! ## READ_PARTIAL -/

/-- `READ_PARTIAL` is accepted at `IDLE` with a window inside one sector: `ADDR` is the block number when `CARD_TYPE[3]`
is set and `(BLK * 512) mod 2^32` otherwise, whatever `STATUS` is; `RESULT` is `ERROR`; no label is recorded (the
model's record, notes/assumptions/14.md); the first event is `Sel(false)` of `CMD17` with `ADDR` (R27, R52, R200, R202,
R279). -/
def Obligations.ReadIsAcceptedWithTranslatedAddress : Prop :=
  ∀ (dst : Handle) (blk : Word32) (ofs cnt : BitVec 10) (s : State) (addr : Word32),
    s.pos = .idle → s.calls = [] → paramsLegal s.params = true →
    ofs.toNat ≤ 511 → 1 ≤ cnt.toNat → cnt.toNat ≤ 512 → ofs.toNat + cnt.toNat ≤ 512 →
    addr = (if s.cardType.getLsbD 3 then blk else BitVec.ofNat 32 (blk.toNat * 512)) →
    exec (.readPartial dst blk ofs cnt) s = .next { s with
      request := none
      failure := none
      work := { Work.unwritten with addr := some addr, result := some .error }
      pos := .readOp ⟨dst, blk, ofs, cnt⟩ .cmd17
      sel := false
      trace := .sel false :: s.trace
      calls := [⟨frameOf s.params.crc7Mode 0x51#8 addr, .bracket 1⟩] }

/-- The byte address: a multiple of 512, and the same for block numbers that differ by 2^23 (R52, R55, R278). -/
def Obligations.ByteAddressIsSectorAlignedAndWraps : Prop :=
  ∀ (blk : Word32) (cardType : Byte), cardType.getLsbD 3 = false →
    (translateBlock blk cardType).toNat % 512 = 0 ∧
    (translateBlock blk cardType).toNat = (blk.toNat * 512) % 2 ^ 32 ∧
    translateBlock (blk + 0x00800000#32) cardType = translateBlock blk cardType

/-- A window that breaks any of the three bounds is refused: no event, no result, `CARD_TYPE` unchanged, the `REFUSED`
mark set (R30, R201). -/
def Obligations.BadWindowIsRefused : Prop :=
  ∀ (dst : Handle) (blk : Word32) (ofs cnt : BitVec 10) (s : State),
    s.pos = .idle → s.calls = [] → paramsLegal s.params = true →
    511 < ofs.toNat ∨ cnt.toNat < 1 ∨ 512 < cnt.toNat ∨ 512 < ofs.toNat + cnt.toNat →
    exec (.readPartial dst blk ofs cnt) s = .next { s with request := none, refused := true }

/-- Read command (R203): at this position the command sent is `CMD17` with the argument `ADDR`; when it has returned
`RES`, 0x00 starts the token detector with `BC` at 30000 (R204), and every other value leads to the release with `ERROR`
and `F_READ_CMD`, no token being awaited. -/
def Obligations.ReadCommandResponseDecides : Prop :=
  (∀ (s : State) (ops : ReadOperands), s.inv = true → s.pos = .readOp ops .cmd17 →
    ∃ addr, s.work.addr = some addr ∧
      (s.calls.getLast?).map (·.frame) = some (frameOf s.params.crc7Mode 0x51#8 addr)) ∧
  ∀ (s : State) (ops : ReadOperands) (v : Byte) (addr : Word32),
    s.pos = .readOp ops .cmd17 → s.calls = [] → s.work.res = some v → s.work.addr = some addr →
    (v = 0x00#8 → settle s = .next { s with
      pos := .readOp ops .token, work := { s.work with bc := some 30000#16 } }) ∧
    (v ≠ 0x00#8 → settle s = .next { s with
      pos := .readOp ops .clean
      failure := some (.readCmd v addr)
      work := { s.work with result := some .error } })

/-- One token read (R91, R204): 0xFE leads to the copy step of the configuration, 0xFF to another read while `BC` is
not 0 and else to `F_TOKEN_TIMEOUT`, every other byte at once to `F_TOKEN_BAD`. -/
def Obligations.TokenReadDecides : Prop :=
  ∀ (s : State) (dst : Handle) (blk : Word32) (ofs cnt : BitVec 10) (bc : BitVec 16),
    paramsLegal s.params = true → s.request = none → s.calls = [] →
    s.pos = .readOp ⟨dst, blk, ofs, cnt⟩ .token → s.work.bc = some bc →
    ((draw s).1 = 0xFE#8 →
      exec (.readPartial dst blk ofs cnt) s = .next { (draw s).2 with
        trace := .xchg 0xFF#8 (draw s).1 :: s.trace
        work := { s.work with rc := some (draw s).1, bc := some (bc - 1#16) }
        pos := .readOp ⟨dst, blk, ofs, cnt⟩ (if s.params.copyMode = .delegated then .copy else .packet 0) }) ∧
    ((draw s).1 = 0xFF#8 ∧ bc ≠ 1#16 →
      exec (.readPartial dst blk ofs cnt) s = .next { (draw s).2 with
        trace := .xchg 0xFF#8 (draw s).1 :: s.trace
        work := { s.work with rc := some (draw s).1, bc := some (bc - 1#16) } }) ∧
    ((draw s).1 = 0xFF#8 ∧ bc = 1#16 →
      exec (.readPartial dst blk ofs cnt) s = .next { (draw s).2 with
        trace := .xchg 0xFF#8 (draw s).1 :: s.trace
        work := { s.work with rc := some (draw s).1, bc := some 0#16, result := some .error }
        failure := some .tokenTimeout
        pos := .readOp ⟨dst, blk, ofs, cnt⟩ .clean }) ∧
    ((draw s).1 ≠ 0xFE#8 ∧ (draw s).1 ≠ 0xFF#8 →
      exec (.readPartial dst blk ofs cnt) s = .next { (draw s).2 with
        trace := .xchg 0xFF#8 (draw s).1 :: s.trace
        work := { s.work with rc := some (draw s).1, bc := some (bc - 1#16), result := some .error }
        failure := some (.tokenBad (draw s).1)
        pos := .readOp ⟨dst, blk, ofs, cnt⟩ .clean })

/-- The delegated copy (R205) with a collaborator that meets its contract (R206): one `Copy` event with the caller's
operands and no exchange of the core; 514 incoming bytes are consumed; position `i` of the destination holds byte
`OFS + i` of the packet, every address outside the window reads as before, and `RESULT` is `OK` (R62, R211). That the
collaborator meets its contract, and where a handle's positions lie, are the model's (notes/assumptions/5.md, 6.md). -/
def Obligations.DelegatedCopyDeliversTheWindow : Prop :=
  ∀ (s : State) (dst : Handle) (blk : Word32) (ofs cnt : BitVec 10) (packet tl : List Byte),
    paramsLegal s.params = true → s.request = none → s.calls = [] →
    s.pos = .readOp ⟨dst, blk, ofs, cnt⟩ .copy → windowOk ofs cnt = true →
    packet.length = 514 → s.incoming = packet ++ tl →
    ∃ m : Memory,
      exec (.readPartial dst blk ofs cnt) s = .next { s with
        trace := .copy dst ofs cnt :: s.trace
        incoming := tl
        work := { s.work with result := some .ok }
        pos := .readOp ⟨dst, blk, ofs, cnt⟩ .clean
        dest := m } ∧
      (∀ i, i < cnt.toNat → m.read (dst * 512 + i) = packet[ofs.toNat + i]?) ∧
      (∀ a, a < dst * 512 ∨ dst * 512 + cnt.toNat ≤ a → m.read a = s.dest.read a)

/-- One exchange of the inline copy (R207): `D[j]` receives the byte; inside the window its `Wr` event is due next,
outside it the next byte of the packet, and after byte 513 without a CRC check the release with `OK`. -/
def Obligations.InlineCopyReadsThePacket : Prop :=
  ∀ (s : State) (dst : Handle) (blk : Word32) (ofs cnt : BitVec 10) (j : Fin 514),
    paramsLegal s.params = true → s.request = none → s.calls = [] →
    s.pos = .readOp ⟨dst, blk, ofs, cnt⟩ (.packet j) →
    (ofs.toNat ≤ j.val ∧ j.val < ofs.toNat + cnt.toNat →
      exec (.readPartial dst blk ofs cnt) s = .next { (draw s).2 with
        trace := .xchg 0xFF#8 (draw s).1 :: s.trace
        work := { s.work with d := setEntry s.work.d j.val (draw s).1 }
        pos := .readOp ⟨dst, blk, ofs, cnt⟩ (.write j) }) ∧
    (¬ (ofs.toNat ≤ j.val ∧ j.val < ofs.toNat + cnt.toNat) →
      (∀ j' : Fin 514, j'.val = j.val + 1 →
        exec (.readPartial dst blk ofs cnt) s = .next { (draw s).2 with
          trace := .xchg 0xFF#8 (draw s).1 :: s.trace
          work := { s.work with d := setEntry s.work.d j.val (draw s).1 }
          pos := .readOp ⟨dst, blk, ofs, cnt⟩ (.packet j') }) ∧
      (j.val = 513 → s.params.crc16Check = false →
        exec (.readPartial dst blk ofs cnt) s = .next { (draw s).2 with
          trace := .xchg 0xFF#8 (draw s).1 :: s.trace
          work := { s.work with d := setEntry s.work.d j.val (draw s).1, result := some .ok }
          pos := .readOp ⟨dst, blk, ofs, cnt⟩ .clean }))

/-- One write of the inline copy (R207, R62): `Wr(DST, j - OFS, D[j])`; exactly that position of the destination is
written, and the next byte of the packet is due. Where a handle's positions lie is the model's
(notes/assumptions/5.md). -/
def Obligations.InlineCopyWritesTheWindow : Prop :=
  ∀ (s : State) (dst : Handle) (blk : Word32) (ofs cnt : BitVec 10) (j j' : Fin 514) (v : Byte),
    paramsLegal s.params = true → s.request = none → s.calls = [] →
    s.pos = .readOp ⟨dst, blk, ofs, cnt⟩ (.write j) → j'.val = j.val + 1 → entry s.work.d j.val = some v →
    ∃ m : Memory,
      exec (.readPartial dst blk ofs cnt) s = .next { s with
        trace := .wr dst (j.val - ofs.toNat) v :: s.trace
        dest := m
        pos := .readOp ⟨dst, blk, ofs, cnt⟩ (.packet j') } ∧
      m.read (dst * 512 + (j.val - ofs.toNat)) = some v ∧
      (∀ a, a ≠ dst * 512 + (j.val - ofs.toNat) → m.read a = s.dest.read a)

/-- The CRC-16 check after the last byte of the packet (R208): a match leads to the release with `OK`, a mismatch to the
release with `ERROR` and `F_DATA_CRC`, which records both values. The three check values of R93 hold of the CRC-16: a
sector of 0x00, a sector of 0xFF, and the ASCII string "123456789"; and it starts at 0 and takes one byte at a time, most
significant bit first, by the polynomial 0x1021. -/
def Obligations.CrcCheckDecides : Prop :=
  (crc16 [] = 0x0000#16 ∧ crc16 (List.replicate 512 0x00#8) = 0x0000#16 ∧ crc16 (List.replicate 512 0xFF#8) = 0x7FA1#16 ∧
    crc16 [0x31#8, 0x32#8, 0x33#8, 0x34#8, 0x35#8, 0x36#8, 0x37#8, 0x38#8, 0x39#8] = 0x31C3#16) ∧
  (∀ (bytes : List Byte) (b : Byte),
    crc16 (bytes ++ [b]) =
      (List.range 8).foldl (fun c _ => if c.getLsbD 15 then (c <<< 1) ^^^ 0x1021#16 else c <<< 1)
        (crc16 bytes ^^^ (b.setWidth 16 <<< 8))) ∧
  ∀ (s : State) (dst : Handle) (blk : Word32) (ofs cnt : BitVec 10) (data : List Byte) (hi : Byte),
    paramsLegal s.params = true → s.request = none → s.calls = [] → s.params.crc16Check = true →
    windowOk ofs cnt = true → s.pos = .readOp ⟨dst, blk, ofs, cnt⟩ (.packet 513) →
    data.length = 512 → s.work.d = data.map some ++ [some hi] →
    (crc16 data = hi ++ (draw s).1 →
      exec (.readPartial dst blk ofs cnt) s = .next { (draw s).2 with
        trace := .xchg 0xFF#8 (draw s).1 :: s.trace
        work := { s.work with d := data.map some ++ [some hi, some (draw s).1], result := some .ok }
        pos := .readOp ⟨dst, blk, ofs, cnt⟩ .clean }) ∧
    (crc16 data ≠ hi ++ (draw s).1 →
      exec (.readPartial dst blk ofs cnt) s = .next { (draw s).2 with
        trace := .xchg 0xFF#8 (draw s).1 :: s.trace
        work := { s.work with d := data.map some ++ [some hi, some (draw s).1], result := some .error }
        failure := some (.dataCrc (crc16 data) (hi ++ (draw s).1))
        pos := .readOp ⟨dst, blk, ofs, cnt⟩ .clean })

/-- The release of a read (R125, R209): `Sel(false)`, then one dummy exchange, and `RESULT` is returned. After `OK` the
destination is as the copy left it; after `ERROR` every position of the window holds a free value (R211), and every
address outside it reads as before (the model's choice, notes/assumptions/13.md). The working registers other than
`RESULT` lose their values: the model's choice (notes/assumptions/7.md). -/
def Obligations.ReadReleasesAndReturns : Prop :=
  ∀ (s : State) (dst : Handle) (blk : Word32) (ofs cnt : BitVec 10),
    paramsLegal s.params = true → s.request = none → s.calls = [] →
    (s.pos = .readOp ⟨dst, blk, ofs, cnt⟩ .clean →
      exec (.readPartial dst blk ofs cnt) s = .next { s with
        sel := false, trace := .sel false :: s.trace, pos := .readOp ⟨dst, blk, ofs, cnt⟩ .release }) ∧
    (s.pos = .readOp ⟨dst, blk, ofs, cnt⟩ .release → s.work.result = some .ok →
      exec (.readPartial dst blk ofs cnt) s = .next { (draw s).2 with
        trace := .xchg 0xFF#8 (draw s).1 :: s.trace
        pos := .idle
        results := .read .ok :: s.results
        work := { Work.unwritten with result := some .ok } }) ∧
    (s.pos = .readOp ⟨dst, blk, ofs, cnt⟩ .release → s.work.result = some .error →
      ∃ m : Memory,
        exec (.readPartial dst blk ofs cnt) s = .next { (draw s).2 with
          trace := .xchg 0xFF#8 (draw s).1 :: s.trace
          pos := .idle
          results := .read .error :: s.results
          work := { Work.unwritten with result := some .error }
          dest := m
          free := (draw s).2.free + cnt.toNat } ∧
        (∀ i, i < cnt.toNat → m.read (dst * 512 + i) = some (Config.freeByte ((draw s).2.free + i))) ∧
        (∀ a, a < dst * 512 ∨ dst * 512 + cnt.toNat ≤ a → m.read a = s.dest.read a))

/-- The frame of `READ_PARTIAL`: parameters and `CARD_TYPE` are never written (R210); while the operation runs on, `TMR`,
`BUF`, `TY` and `PCMD` keep their values; the destination changes only inside the window, and at a `Wr` position only at
its one byte (R62); `REFUSED` only where the request is refused, and then nothing else but the request changes (R30). The
window's addresses are those of `destAddr`, the model's layout of a handle (notes/assumptions/5.md); that a `Copy` event
writes only the window is the collaborator's contract, assumed (notes/assumptions/6.md); that a failed read changes only
the window, in the step that returns, is the model's (notes/assumptions/13.md). -/
def Obligations.ReadPartialFrame : Prop :=
  ∀ (dst : Handle) (blk : Word32) (ofs cnt : BitVec 10) (s t : State), s.inv = true →
    exec (.readPartial dst blk ofs cnt) s = .next t →
    t.params = s.params ∧ t.cardType = s.cardType ∧
    (s.pos ≠ .readOp ⟨dst, blk, ofs, cnt⟩ .release → t.results = s.results) ∧
    (s.pos = .idle ∨ s.pos = .readOp ⟨dst, blk, ofs, cnt⟩ .release ∨
      t.work.tmr = s.work.tmr ∧ t.work.buf = s.work.buf ∧ t.work.ty = s.work.ty ∧ t.work.pcmd = s.work.pcmd) ∧
    (∀ a, a < destAddr dst 0 ∨ destAddr dst 0 + cnt.toNat ≤ a → t.dest.read a = s.dest.read a) ∧
    (∀ j, s.pos = .readOp ⟨dst, blk, ofs, cnt⟩ (.write j) →
      ∀ a, a ≠ destAddr dst (j.val - ofs.toNat) → t.dest.read a = s.dest.read a) ∧
    (s.pos ≠ .readOp ⟨dst, blk, ofs, cnt⟩ .copy → s.pos ≠ .readOp ⟨dst, blk, ofs, cnt⟩ .release →
      (∀ j, s.pos ≠ .readOp ⟨dst, blk, ofs, cnt⟩ (.write j)) → ∀ a, t.dest.read a = s.dest.read a) ∧
    (t.refused = s.refused ∨ t = { s with request := none, refused := true })

/-! ## Refusals -/

/-- In a configuration with `P_CRC16_CHECK` and the delegated copy both host operations are refused by name (R208). -/
def Obligations.IllegalConfigurationIsRefused : Prop :=
  ∀ (s : State) (dst : Handle) (blk : Word32) (ofs cnt : BitVec 10),
    s.params.crc16Check = true → s.params.copyMode = .delegated →
    exec .hostInitialize s = .refused .illegalConfig ∧
    exec (.readPartial dst blk ofs cnt) s = .refused .illegalConfig

/-- A request offered while the core is busy is refused: one step with no event, which sets the `REFUSED` mark and
leaves the running operation as it was (R29, R30, R276). That a refusal is a step of its own is the model's choice
(notes/assumptions/11.md). -/
def Obligations.RequestWhileBusyIsRefused : Prop :=
  ∀ (s : State) (r : Request), s.inv = true → paramsLegal s.params = true → busy s = true →
    s.request = some r → step s = .next { s with request := none, refused := true }

/-- A request with a reserved `OP` is refused in every state (R30, R96). That the refusal is a step of its own, before any
event that is due, also while the core is busy, is the model's choice (notes/assumptions/11.md). -/
def Obligations.ReservedOperationIsRefused : Prop :=
  ∀ (s : State) (r : Request), s.request = some r → r.op = 0b00#2 ∨ r.op = 0b11#2 →
    step s = .next { s with request := none, refused := true }

/-! ## The whole machine -/

/-- The `REFUSED` mark is cleared by no step (R30). -/
def Obligations.RefusedMarkIsNeverCleared : Prop :=
  ∀ s t : State, step s = .next t → s.refused = true → t.refused = true

/-- The trace is append-only and a step makes at most one event (R28, R31). The parameters of R7 never change: that they
are a record State carries and no step writes is the model's choice (notes/assumptions/10.md). -/
def Obligations.StepAppendsAtMostOneEvent : Prop :=
  ∀ s t : State, step s = .next t →
    t.params = s.params ∧ (t.trace = s.trace ∨ ∃ e, t.trace = e :: s.trace)

/-- The select line is written only by `Sel` events, to the level the event carries (R25). -/
def Obligations.SelectLineFollowsTheTrace : Prop :=
  ∀ s t : State, step s = .next t →
    (∀ b, t.trace = .sel b :: s.trace → t.sel = b) ∧
    ((∀ b, t.trace ≠ .sel b :: s.trace) → t.sel = s.sel)

/-- `CARD_TYPE` is written only at the cleanup step of `INITIALIZE`, with `TY` (R21, R23, R172). -/
def Obligations.CardTypeIsWrittenOnlyAtCleanup : Prop :=
  ∀ s t : State, step s = .next t → t.cardType ≠ s.cardType →
    s.pos = .initOp .clean ∧ s.work.ty = some t.cardType ∧ t.pos = .initOp .release

/-- A destination byte changes only in a `Copy` step, inside its window, in a `Wr` step, at its one position, or at the end
of a read that returns `ERROR`, inside the window of that read (R62, R211). That the bytes of a failed read change in the
step that returns is the model's (notes/assumptions/13.md), and so are the layout of a handle (notes/assumptions/5.md) and
the collaborator's writes being in the step of the `Copy` event (notes/assumptions/6.md). -/
def Obligations.DestinationIsWrittenOnlyByReads : Prop :=
  ∀ (s t : State) (a : Nat), step s = .next t → t.dest.read a ≠ s.dest.read a →
    (∃ dst ofs cnt, t.trace = .copy dst ofs cnt :: s.trace ∧
      destAddr dst 0 ≤ a ∧ a < destAddr dst 0 + cnt.toNat) ∨
    (∃ dst i v, t.trace = .wr dst i v :: s.trace ∧ a = destAddr dst i) ∨
    (∃ ops, s.pos = .readOp ops .release ∧ t.results = .read .error :: s.results ∧
      destAddr ops.dst 0 ≤ a ∧ a < destAddr ops.dst 0 + ops.cnt.toNat)

/-- A step that records a label is the failure entry: the position is the cleanup of the operation, `TY` is 0x00 or
`RESULT` is `ERROR`, and `CARD_TYPE` is as it was (R232, R233). -/
def Obligations.FailureEntryGoesToCleanup : Prop :=
  ∀ (s t : State) (f : Failure), step s = .next t → s.failure = none → t.failure = some f →
    ((t.pos = .initOp .clean ∧ t.work.ty = some 0x00#8) ∨
      (∃ ops, t.pos = .readOp ops .clean ∧ t.work.result = some .error)) ∧
    t.calls = [] ∧ t.cardType = s.cardType

/-- A recorded label stays until the next operation is accepted (the model's choice, notes/assumptions/14.md): an
operation records one label at most (R237). -/
def Obligations.FirstFailureIsTheOnlyOne : Prop :=
  ∀ (s t : State) (f : Failure), s.inv = true → step s = .next t → s.failure = some f →
    t.failure = some f ∨ (s.pos = .idle ∧ s.calls = [] ∧ t.failure = none)

/-- The SD-v2 path never sends `CMD16` (R175, R280): inside an operation a dispatch of the frame of `CMD16`, or
of any frame with `F0` 0x50, is in progress only at its own position, and that position is reached only from the SD-v1/MMC idle-exit poll, which is reached only from
the probe, which is reached only when `CMD8` has returned. -/
def Obligations.BlockLengthIsSetOnlyAfterTheProbe : Prop :=
  (∀ (s : State) (c : Call), s.inv = true → s.pos ≠ .idle → c ∈ s.calls →
    c.frame = frameOf s.params.crc7Mode 0x50#8 0x00000200#32 ∨ frameF0 c.frame = 0x50#8 → s.pos = .initOp .blen) ∧
  ∀ s t : State, step s = .next t →
    (t.pos = .initOp .blen → s.pos = .initOp .blen ∨ s.pos = .initOp .idlex) ∧
    (t.pos = .initOp .idlex → s.pos = .initOp .idlex ∨ s.pos = .initOp .probe) ∧
    (t.pos = .initOp .probe → s.pos = .initOp .probe ∨ s.pos = .initOp .cmd8)

/-- The invariant holds at reset. -/
def Obligations.ResetMeetsTheInvariant : Prop := State.reset.inv = true

/-- Every step keeps the invariant: `CARD_TYPE` is one of its five values (R22), the return stack holds at most two calls
in the form of R28, every register a later step reads holds a value (R27), and the destination memory is in canonical
form. -/
def Obligations.StepKeepsTheInvariant : Prop :=
  ∀ s t : State, s.inv = true → step s = .next t → t.inv = true

/-- Where the invariant holds and the configuration is legal, a step always gives a next state: no register is read
before it is written, and nothing leaves an operation early (R27, R232, R234). -/
def Obligations.InvariantStatesNeverStop : Prop :=
  ∀ s : State, s.inv = true → paramsLegal s.params = true → ∃ t, step s = .next t

/-- Every `INITIALIZE` ends, whatever the card returns, after at most 100013 `Sel` and 900701 `Xchg` events: at `IDLE`,
deselected, the last event one dummy exchange after `Sel(false)`, `CARD_TYPE` one of its five values, one result that is
`READY` exactly when `CARD_TYPE` is not 0x00, and a label exactly when it is 0x00 (R22, R125, R172, R173, R176, R177,
R237, R273, R282). That every exchange completes is assumed (notes/assumptions/16.md). -/
def Obligations.InitializeAlwaysCompletes : Prop :=
  ∀ s : State, s.inv = true → s.pos = .idle → s.calls = [] →
    s.request = some ⟨0b01#2, 0, 0#32, 0#10, 0#10⟩ → paramsLegal s.params = true →
    s.params.nWarmupDesel = 10 → s.params.nWarmupSel = 600 →
    ∃ (n : Nat) (t : State) (b : Byte) (mid : List Event), n ≤ 1000714 ∧ runSteps n s = .next t ∧
      t.pos = .idle ∧ t.calls = [] ∧ t.sel = false ∧ t.refused = s.refused ∧
      t.trace = (.xchg 0xFF#8 b :: .sel false :: mid) ++ s.trace ∧
      selCount mid + 1 ≤ 100013 ∧ xchgCount mid + 1 ≤ 900701 ∧ copyCount mid = 0 ∧ wrCount mid = 0 ∧
      t.cardType ∈ [0x00#8, 0x01#8, 0x02#8, 0x04#8, 0x0C#8] ∧
      t.results = .initialized (if t.cardType = 0x00#8 then .notInitialized else .ready) :: s.results ∧
      (t.failure = none ↔ t.cardType ≠ 0x00#8)

/-- Every admitted `READ_PARTIAL` ends, whatever the card sends, after at most 3 `Sel` and 30533 `Xchg` events (and, in
delegated mode, one `Copy`): at `IDLE`, deselected, the last event one dummy exchange after `Sel(false)`, `CARD_TYPE`
unchanged, and a label exactly with `ERROR`; in delegated mode there is one `Copy` event exactly with `OK` (R125, R209,
R210, R213, R214, R237, R273, R282). In delegated mode the read ends because the collaborator is assumed to meet R206 and
to return (notes/assumptions/6.md, unsafe); that every exchange completes is assumed too (notes/assumptions/16.md). -/
def Obligations.ReadPartialAlwaysCompletes : Prop :=
  ∀ (s : State) (dst : Handle) (blk : Word32) (ofs cnt : BitVec 10),
    s.inv = true → s.pos = .idle → s.calls = [] →
    s.request = some ⟨0b10#2, dst, blk, ofs, cnt⟩ → paramsLegal s.params = true → windowOk ofs cnt = true →
    ∃ (n : Nat) (t : State) (b : Byte) (mid : List Event) (r : ReadResult), runSteps n s = .next t ∧
      t.pos = .idle ∧ t.calls = [] ∧ t.sel = false ∧ t.refused = s.refused ∧ t.cardType = s.cardType ∧
      t.trace = (.xchg 0xFF#8 b :: .sel false :: mid) ++ s.trace ∧
      selCount mid + 1 = 3 ∧ xchgCount mid + 1 ≤ 30533 ∧
      t.results = .read r :: s.results ∧
      (t.failure = none ↔ r = .ok) ∧
      (s.params.copyMode = .delegated →
        wrCount mid = 0 ∧ copyCount mid = (if r = .ok then 1 else 0) ∧ xchgCount mid + 1 ≤ 30019) ∧
      (s.params.copyMode = .inlined → copyCount mid = 0)
end

