-- ==== Sys2Proof/Laws/Encoding.lean ====
section
/-! SUPPORT. The bits and fields of a frame, and what the decoder accepts of a frame built by `frameOf`. -/

namespace Sys2Proof

/-- Bit `i` of three joined fields. -/
theorem getLsbD_fields (a : Byte) (b : Word32) (c : Byte) (i : Nat) :
    (show Frame from a ++ b ++ c).getLsbD i =
      if i < 8 then c.getLsbD i else if i < 40 then b.getLsbD (i - 8) else a.getLsbD (i - 40) := by
  have h1 := BitVec.getLsbD_append (x := a ++ b) (y := c) (i := i)
  have h2 := BitVec.getLsbD_append (x := a) (y := b) (i := i - 8)
  refine h1.trans ?_
  rw [h2]
  by_cases h8 : i < 8
  · simp [h8]
  · by_cases h40 : i < 40
    · simp [h8, h40, show i - 8 < 32 by omega]
    · simp [h8, h40, show ¬ i - 8 < 32 by omega, Nat.sub_sub]

/-- Bit `i` of a frame (R80). -/
theorem getLsbD_frameOf (mode : Crc7Mode) (code : Byte) (arg : Word32) (i : Nat) :
    (frameOf mode code arg).getLsbD i =
      if i < 8 then (trailer mode (code &&& 0x7F#8) arg).getLsbD i
      else if i < 40 then arg.getLsbD (i - 8) else (code &&& 0x7F#8).getLsbD (i - 40) :=
  getLsbD_fields _ _ _ i

@[simp] theorem frameF0_frameOf (mode : Crc7Mode) (code : Byte) (arg : Word32) :
    frameF0 (frameOf mode code arg) = code &&& 0x7F#8 := by
  apply BitVec.eq_of_getLsbD_eq
  intro i hi
  simp only [frameF0, BitVec.getLsbD_extractLsb', getLsbD_frameOf]
  simp [hi, show ¬ 40 + i < 8 by omega]

@[simp] theorem frameArg_frameOf (mode : Crc7Mode) (code : Byte) (arg : Word32) :
    frameArg (frameOf mode code arg) = arg := by
  apply BitVec.eq_of_getLsbD_eq
  intro i hi
  simp only [frameArg, BitVec.getLsbD_extractLsb', getLsbD_frameOf]
  simp [hi, show 8 + i < 40 by omega]

@[simp] theorem frameF5_frameOf (mode : Crc7Mode) (code : Byte) (arg : Word32) :
    frameF5 (frameOf mode code arg) = trailer mode (code &&& 0x7F#8) arg := by
  apply BitVec.eq_of_getLsbD_eq
  intro i hi
  simp only [frameF5, BitVec.getLsbD_extractLsb', getLsbD_frameOf]
  simp [hi]

/-- A frame is its three fields. -/
theorem frame_eq_fields (w : Frame) : (show Frame from frameF0 w ++ frameArg w ++ frameF5 w) = w := by
  apply BitVec.eq_of_getLsbD_eq
  intro i hi
  simp only [getLsbD_fields, frameF0, frameArg, frameF5, BitVec.getLsbD_extractLsb']
  by_cases h8 : i < 8
  · simp [h8]
  · by_cases h40 : i < 40
    · simp [h8, h40, show i - 8 < 32 by omega, show 8 + (i - 8) = i by omega]
    · simp [h8, h40, show i - 40 < 8 by omega, show 40 + (i - 40) = i by omega]

/-- Decoding a frame built from a code and an argument looks at the command only: its trailing byte is right. -/
theorem decodeFrame_frameOf (mode : Crc7Mode) (code : Byte) (arg : Word32) :
    decodeFrame mode (frameOf mode code arg) = decodeCommand (code &&& 0x7F#8) arg := by
  simp [decodeFrame]

/-- A frame that decodes is the frame of its own fields: no other trailing byte is accepted (R83, R84). -/
theorem frameOf_of_decodeFrame {mode : Crc7Mode} {w : Frame} {i : Instr} (h : decodeFrame mode w = .ok i)
    (h7 : (frameF0 w).getLsbD 7 = false) : w = frameOf mode (frameF0 w) (frameArg w) := by
  have hm : frameF0 w &&& 0x7F#8 = frameF0 w := by
    apply BitVec.eq_of_getLsbD_eq
    intro j hj
    have : j = 0 ∨ j = 1 ∨ j = 2 ∨ j = 3 ∨ j = 4 ∨ j = 5 ∨ j = 6 ∨ j = 7 := by omega
    rcases this with h | h | h | h | h | h | h | h <;> subst h <;> simp_all
  unfold decodeFrame at h
  split at h
  · rename_i h5
    have := frame_eq_fields w
    rw [h5] at this
    simpa [frameOf, hm] using this.symm
  · simp at h

end Sys2Proof
end

