-- ==== Sys2Proof/Laws/Memory.lean ====
section
/-! SUPPORT. The laws of the destination memory and of the scratch list `D`: a read after a write, and the canonical
form. -/

namespace Sys2Proof.Machine

/-! ## Canonical form -/

theorem Memory.above_mono (m : Memory) {a b : Nat} (hab : a ≤ b) (h : m.above b = true) : m.above a = true := by
  cases m with
  | nil => rfl
  | cons c t =>
    simp only [Memory.above, Bool.and_eq_true, decide_eq_true_eq] at h ⊢
    exact ⟨by omega, h.2⟩

theorem Memory.above_write (m : Memory) (b a : Nat) (v : Byte) (hb : b < a) (h : m.above b = true) :
    (m.write a v).above b = true := by
  induction m generalizing b with
  | nil => simp [Memory.write, Memory.above, hb]
  | cons c t ih =>
    obtain ⟨c, w⟩ := c
    simp only [Memory.above, Bool.and_eq_true, decide_eq_true_eq] at h
    simp only [Memory.write]
    split
    · simp [Memory.above, *]
    · split
      · subst c
        simp [Memory.above, hb, h.2]
      · simp only [Memory.above, Bool.and_eq_true, decide_eq_true_eq]
        exact ⟨h.1, ih c (by omega) h.2⟩

/-- A write keeps the canonical form. -/
theorem Memory.wf_write (m : Memory) (a : Nat) (v : Byte) (h : m.wf = true) : (m.write a v).wf = true := by
  cases m with
  | nil => rfl
  | cons c t =>
    obtain ⟨c, w⟩ := c
    simp only [Memory.wf] at h
    simp only [Memory.write]
    split
    · simp [Memory.wf, Memory.above, *]
    · split
      · subst c; simpa [Memory.wf] using h
      · exact Memory.above_write t c a v (by omega) h

/-- Writing a list of bytes keeps the canonical form. -/
theorem Memory.wf_writeList (vs : List Byte) (m : Memory) (a : Nat) (h : m.wf = true) :
    (m.writeList a vs).wf = true := by
  induction vs generalizing m a with
  | nil => exact h
  | cons v t ih => exact ih _ _ (Memory.wf_write m a v h)

/-! ## Reads after writes -/

theorem Memory.read_of_above (m : Memory) (a : Nat) (h : m.above a = true) : m.read a = none := by
  induction m with
  | nil => rfl
  | cons c t ih =>
    obtain ⟨c, w⟩ := c
    simp only [Memory.above, Bool.and_eq_true, decide_eq_true_eq] at h
    simp only [Memory.read]
    rw [if_neg (by omega)]
    exact ih (Memory.above_mono t (by omega) h.2)

/-- A read of the address written gives the byte written. -/
@[simp] theorem Memory.read_write_same (m : Memory) (a : Nat) (v : Byte) : (m.write a v).read a = some v := by
  induction m with
  | nil => simp [Memory.write, Memory.read]
  | cons c t ih =>
    obtain ⟨c, w⟩ := c
    simp only [Memory.write]
    split
    · simp [Memory.read]
    · split
      · simp [Memory.read]
      · rename_i h
        simp [Memory.read, ih, Ne.symm h]

/-- A write leaves every other address alone. -/
theorem Memory.read_write_other (m : Memory) (a b : Nat) (v : Byte) (h : b ≠ a) :
    (m.write a v).read b = m.read b := by
  induction m with
  | nil => simp [Memory.write, Memory.read, Ne.symm h]
  | cons c t ih =>
    obtain ⟨c, w⟩ := c
    simp only [Memory.write]
    split
    · simp [Memory.read, Ne.symm h]
    · split
      · subst c; simp [Memory.read, Ne.symm h]
      · simp [Memory.read, ih]

/-- A write of a list leaves every address outside its bytes alone. -/
theorem Memory.read_writeList_outside (vs : List Byte) (m : Memory) (a b : Nat)
    (h : b < a ∨ a + vs.length ≤ b) : (m.writeList a vs).read b = m.read b := by
  induction vs generalizing m a with
  | nil => rfl
  | cons v t ih =>
    simp only [List.length_cons] at h
    rw [Memory.writeList, ih _ _ (by omega), Memory.read_write_other _ _ _ _ (by omega)]

/-- A read inside a written list gives the list's byte. -/
theorem Memory.read_writeList_inside (vs : List Byte) (m : Memory) (a i : Nat) (h : i < vs.length) :
    (m.writeList a vs).read (a + i) = some vs[i] := by
  induction vs generalizing m a i with
  | nil => simp at h
  | cons v t ih =>
    cases i with
    | zero =>
      rw [Memory.writeList, Memory.read_writeList_outside _ _ _ _ (by omega)]
      simp
    | succ i =>
      have := ih (m.write a v) (a + 1) i (by simpa using h)
      simpa [Memory.writeList, Nat.add_assoc, Nat.add_comm 1 i] using this

/-! ## The scratch list -/

/-- `D[j]` after `D[j] <- v`. -/
@[simp] theorem entry_setEntry_same (d : List (Option Byte)) (j : Nat) (v : Byte) :
    entry (setEntry d j v) j = some v := by
  induction d, j using setEntry.induct with
  | case1 => simp [setEntry, entry]
  | case2 j ih => simpa [setEntry, entry] using ih
  | case3 => simp [setEntry, entry]
  | case4 x t j ih => simpa [setEntry, entry] using ih

/-- `D[i]` is unchanged by `D[j] <- v` for another `j`. -/
theorem entry_setEntry_other (d : List (Option Byte)) (i j : Nat) (v : Byte) (h : i ≠ j) :
    entry (setEntry d j v) i = entry d i := by
  induction d, j using setEntry.induct generalizing i with
  | case1 => cases i with
    | zero => exact absurd rfl h
    | succ i => simp [setEntry, entry]
  | case2 j ih => cases i with
    | zero => simp [setEntry, entry]
    | succ i => simpa [setEntry, entry] using ih i (by omega)
  | case3 => cases i with
    | zero => exact absurd rfl h
    | succ i => simp [setEntry, entry]
  | case4 x t j ih => cases i with
    | zero => simp [setEntry, entry]
    | succ i => simpa [setEntry, entry] using ih i (by omega)

end Sys2Proof.Machine
end

