-- ==== Sys2Proof/Laws/PerInstr.lean ====
section
/-! SUPPORT. Statements about every instruction, one lemma per constructor. -/

namespace Sys2Proof.Laws

/-- The words of an instruction have the shape R80 and R96 give them, in both `P_CRC7_MODE` values: a frame has start
bit 0, transmission bit 1 and end bit 1, and a request has one of the two operation codes. -/
def EncodingShape.Statement (i : Instr) : Prop :=
  ∀ mode : Crc7Mode,
    match encode mode i with
    | .frame w => w.getLsbD 47 = false ∧ w.getLsbD 46 = true ∧ w.getLsbD 0 = true
    | .request r => r.op = 0b01#2 ∨ r.op = 0b10#2

theorem EncodingShape.frameOf_shape (mode : Crc7Mode) (code : Byte) (arg : Word32)
    (h6 : code.getLsbD 6 = true) (ht : (trailer mode (code &&& 0x7F#8) arg).getLsbD 0 = true) :
    (frameOf mode code arg).getLsbD 47 = false ∧ (frameOf mode code arg).getLsbD 46 = true ∧
      (frameOf mode code arg).getLsbD 0 = true := by
  simp only [getLsbD_frameOf]
  exact ⟨by simp, by simpa using h6, by simpa using ht⟩

theorem EncodingShape.trailer_end (mode : Crc7Mode) (f0 : Byte) (arg : Word32) :
    (trailer mode f0 arg).getLsbD 0 = true := by
  cases mode
  · simp only [trailer, trailerTable]
    split
    · rfl
    · split <;> rfl
  · exact (BitVec.getLsbD_append (x := crc7 (f0 :: argBytes arg)) (y := 1#1) (i := 0)).trans rfl

theorem EncodingShape.cmd0 : EncodingShape.Statement .cmd0 :=
  fun mode => EncodingShape.frameOf_shape mode _ _ rfl (EncodingShape.trailer_end mode _ _)

theorem EncodingShape.cmd1 : EncodingShape.Statement .cmd1 :=
  fun mode => EncodingShape.frameOf_shape mode _ _ rfl (EncodingShape.trailer_end mode _ _)

theorem EncodingShape.cmd8 : EncodingShape.Statement .cmd8 :=
  fun mode => EncodingShape.frameOf_shape mode _ _ rfl (EncodingShape.trailer_end mode _ _)

theorem EncodingShape.cmd16 : EncodingShape.Statement .cmd16 :=
  fun mode => EncodingShape.frameOf_shape mode _ _ rfl (EncodingShape.trailer_end mode _ _)

theorem EncodingShape.cmd17 (addr : Word32) : EncodingShape.Statement (.cmd17 addr) :=
  fun mode => EncodingShape.frameOf_shape mode _ _ rfl (EncodingShape.trailer_end mode _ _)

theorem EncodingShape.cmd55 : EncodingShape.Statement .cmd55 :=
  fun mode => EncodingShape.frameOf_shape mode _ _ rfl (EncodingShape.trailer_end mode _ _)

theorem EncodingShape.cmd58 : EncodingShape.Statement .cmd58 :=
  fun mode => EncodingShape.frameOf_shape mode _ _ rfl (EncodingShape.trailer_end mode _ _)

theorem EncodingShape.acmd41 (hcs : Bool) : EncodingShape.Statement (.acmd41 hcs) :=
  fun mode => EncodingShape.frameOf_shape mode _ _ rfl (EncodingShape.trailer_end mode _ _)

theorem EncodingShape.hostInitialize : EncodingShape.Statement .hostInitialize :=
  fun _ => .inl rfl

theorem EncodingShape.readPartial (dst : Handle) (blk : Word32) (ofs cnt : BitVec 10) :
    EncodingShape.Statement (.readPartial dst blk ofs cnt) :=
  fun _ => .inr rfl

end Sys2Proof.Laws
end

