-- ==== Sys2Proof/Laws/State.lean ====
section
/-! SUPPORT. The fields of `State` after each shared operation, one lemma per field, so that no proof unfolds an
operation to read a field. -/

namespace Sys2Proof.Machine

/-! ### `emit` -/

@[simp] theorem emit_params (e : Event) (s : State) : (emit e s).params = s.params := rfl
@[simp] theorem emit_cardType (e : Event) (s : State) : (emit e s).cardType = s.cardType := rfl
@[simp] theorem emit_sel (e : Event) (s : State) : (emit e s).sel = s.sel := rfl
@[simp] theorem emit_work (e : Event) (s : State) : (emit e s).work = s.work := rfl
@[simp] theorem emit_pos (e : Event) (s : State) : (emit e s).pos = s.pos := rfl
@[simp] theorem emit_calls (e : Event) (s : State) : (emit e s).calls = s.calls := rfl
@[simp] theorem emit_request (e : Event) (s : State) : (emit e s).request = s.request := rfl
@[simp] theorem emit_refused (e : Event) (s : State) : (emit e s).refused = s.refused := rfl
@[simp] theorem emit_failure (e : Event) (s : State) : (emit e s).failure = s.failure := rfl
@[simp] theorem emit_results (e : Event) (s : State) : (emit e s).results = s.results := rfl
@[simp] theorem emit_trace (e : Event) (s : State) : (emit e s).trace = e :: s.trace := rfl
@[simp] theorem emit_dest (e : Event) (s : State) : (emit e s).dest = s.dest := rfl
@[simp] theorem emit_incoming (e : Event) (s : State) : (emit e s).incoming = s.incoming := rfl
@[simp] theorem emit_free (e : Event) (s : State) : (emit e s).free = s.free := rfl

/-! ### `select` -/

@[simp] theorem select_params (b : Bool) (s : State) : (select b s).params = s.params := rfl
@[simp] theorem select_cardType (b : Bool) (s : State) : (select b s).cardType = s.cardType := rfl
@[simp] theorem select_sel (b : Bool) (s : State) : (select b s).sel = b := rfl
@[simp] theorem select_work (b : Bool) (s : State) : (select b s).work = s.work := rfl
@[simp] theorem select_pos (b : Bool) (s : State) : (select b s).pos = s.pos := rfl
@[simp] theorem select_calls (b : Bool) (s : State) : (select b s).calls = s.calls := rfl
@[simp] theorem select_request (b : Bool) (s : State) : (select b s).request = s.request := rfl
@[simp] theorem select_refused (b : Bool) (s : State) : (select b s).refused = s.refused := rfl
@[simp] theorem select_failure (b : Bool) (s : State) : (select b s).failure = s.failure := rfl
@[simp] theorem select_results (b : Bool) (s : State) : (select b s).results = s.results := rfl
@[simp] theorem select_trace (b : Bool) (s : State) : (select b s).trace = .sel b :: s.trace := rfl
@[simp] theorem select_dest (b : Bool) (s : State) : (select b s).dest = s.dest := rfl
@[simp] theorem select_incoming (b : Bool) (s : State) : (select b s).incoming = s.incoming := rfl
@[simp] theorem select_free (b : Bool) (s : State) : (select b s).free = s.free := rfl

/-! ### `draw` -/

@[simp] theorem draw_params (s : State) : ((draw s).2).params = s.params := by
  unfold draw; split <;> simp_all
@[simp] theorem draw_cardType (s : State) : ((draw s).2).cardType = s.cardType := by
  unfold draw; split <;> simp_all
@[simp] theorem draw_sel (s : State) : ((draw s).2).sel = s.sel := by
  unfold draw; split <;> simp_all
@[simp] theorem draw_work (s : State) : ((draw s).2).work = s.work := by
  unfold draw; split <;> simp_all
@[simp] theorem draw_pos (s : State) : ((draw s).2).pos = s.pos := by
  unfold draw; split <;> simp_all
@[simp] theorem draw_calls (s : State) : ((draw s).2).calls = s.calls := by
  unfold draw; split <;> simp_all
@[simp] theorem draw_request (s : State) : ((draw s).2).request = s.request := by
  unfold draw; split <;> simp_all
@[simp] theorem draw_refused (s : State) : ((draw s).2).refused = s.refused := by
  unfold draw; split <;> simp_all
@[simp] theorem draw_failure (s : State) : ((draw s).2).failure = s.failure := by
  unfold draw; split <;> simp_all
@[simp] theorem draw_results (s : State) : ((draw s).2).results = s.results := by
  unfold draw; split <;> simp_all
@[simp] theorem draw_trace (s : State) : ((draw s).2).trace = s.trace := by
  unfold draw; split <;> simp_all
@[simp] theorem draw_dest (s : State) : ((draw s).2).dest = s.dest := by
  unfold draw; split <;> simp_all
@[simp] theorem draw_incoming (s : State) : ((draw s).2).incoming = s.incoming.tail := by
  unfold draw; split <;> simp_all

/-! ### `exchange` -/

@[simp] theorem exchange_params (o : Byte) (s : State) : ((exchange o s).2).params = s.params := by
  simp [exchange]
@[simp] theorem exchange_cardType (o : Byte) (s : State) : ((exchange o s).2).cardType = s.cardType := by
  simp [exchange]
@[simp] theorem exchange_sel (o : Byte) (s : State) : ((exchange o s).2).sel = s.sel := by
  simp [exchange]
@[simp] theorem exchange_work (o : Byte) (s : State) : ((exchange o s).2).work = s.work := by
  simp [exchange]
@[simp] theorem exchange_pos (o : Byte) (s : State) : ((exchange o s).2).pos = s.pos := by
  simp [exchange]
@[simp] theorem exchange_calls (o : Byte) (s : State) : ((exchange o s).2).calls = s.calls := by
  simp [exchange]
@[simp] theorem exchange_request (o : Byte) (s : State) : ((exchange o s).2).request = s.request := by
  simp [exchange]
@[simp] theorem exchange_refused (o : Byte) (s : State) : ((exchange o s).2).refused = s.refused := by
  simp [exchange]
@[simp] theorem exchange_failure (o : Byte) (s : State) : ((exchange o s).2).failure = s.failure := by
  simp [exchange]
@[simp] theorem exchange_results (o : Byte) (s : State) : ((exchange o s).2).results = s.results := by
  simp [exchange]
@[simp] theorem exchange_trace (o : Byte) (s : State) : ((exchange o s).2).trace = .xchg o (draw s).1 :: s.trace := by
  simp [exchange]
@[simp] theorem exchange_dest (o : Byte) (s : State) : ((exchange o s).2).dest = s.dest := by
  simp [exchange]
@[simp] theorem exchange_incoming (o : Byte) (s : State) : ((exchange o s).2).incoming = s.incoming.tail := by
  simp [exchange]
@[simp] theorem exchange_free (o : Byte) (s : State) : ((exchange o s).2).free = (draw s).2.free := by
  simp [exchange]

@[simp] theorem exchange_fst (o : Byte) (s : State) : (exchange o s).1 = (draw s).1 := rfl

/-! ### `dummyExchange` -/

@[simp] theorem dummyExchange_params (s : State) : (dummyExchange s).params = s.params := by
  simp [dummyExchange]
@[simp] theorem dummyExchange_cardType (s : State) : (dummyExchange s).cardType = s.cardType := by
  simp [dummyExchange]
@[simp] theorem dummyExchange_sel (s : State) : (dummyExchange s).sel = s.sel := by
  simp [dummyExchange]
@[simp] theorem dummyExchange_work (s : State) : (dummyExchange s).work = s.work := by
  simp [dummyExchange]
@[simp] theorem dummyExchange_pos (s : State) : (dummyExchange s).pos = s.pos := by
  simp [dummyExchange]
@[simp] theorem dummyExchange_calls (s : State) : (dummyExchange s).calls = s.calls := by
  simp [dummyExchange]
@[simp] theorem dummyExchange_request (s : State) : (dummyExchange s).request = s.request := by
  simp [dummyExchange]
@[simp] theorem dummyExchange_refused (s : State) : (dummyExchange s).refused = s.refused := by
  simp [dummyExchange]
@[simp] theorem dummyExchange_failure (s : State) : (dummyExchange s).failure = s.failure := by
  simp [dummyExchange]
@[simp] theorem dummyExchange_results (s : State) : (dummyExchange s).results = s.results := by
  simp [dummyExchange]
@[simp] theorem dummyExchange_trace (s : State) : (dummyExchange s).trace = .xchg Config.dummy (draw s).1 :: s.trace := by
  simp [dummyExchange]
@[simp] theorem dummyExchange_dest (s : State) : (dummyExchange s).dest = s.dest := by
  simp [dummyExchange]
@[simp] theorem dummyExchange_incoming (s : State) : (dummyExchange s).incoming = s.incoming.tail := by
  simp [dummyExchange]
@[simp] theorem dummyExchange_free (s : State) : (dummyExchange s).free = (draw s).2.free := by
  simp [dummyExchange]

/-! ### `drawMany` -/

@[simp] theorem drawMany_params (k : Nat) (s : State) : ((drawMany k s).2).params = s.params := by
  induction k generalizing s with
  | zero => rfl
  | succ k ih => simp [drawMany, ih]
@[simp] theorem drawMany_cardType (k : Nat) (s : State) : ((drawMany k s).2).cardType = s.cardType := by
  induction k generalizing s with
  | zero => rfl
  | succ k ih => simp [drawMany, ih]
@[simp] theorem drawMany_sel (k : Nat) (s : State) : ((drawMany k s).2).sel = s.sel := by
  induction k generalizing s with
  | zero => rfl
  | succ k ih => simp [drawMany, ih]
@[simp] theorem drawMany_work (k : Nat) (s : State) : ((drawMany k s).2).work = s.work := by
  induction k generalizing s with
  | zero => rfl
  | succ k ih => simp [drawMany, ih]
@[simp] theorem drawMany_pos (k : Nat) (s : State) : ((drawMany k s).2).pos = s.pos := by
  induction k generalizing s with
  | zero => rfl
  | succ k ih => simp [drawMany, ih]
@[simp] theorem drawMany_calls (k : Nat) (s : State) : ((drawMany k s).2).calls = s.calls := by
  induction k generalizing s with
  | zero => rfl
  | succ k ih => simp [drawMany, ih]
@[simp] theorem drawMany_request (k : Nat) (s : State) : ((drawMany k s).2).request = s.request := by
  induction k generalizing s with
  | zero => rfl
  | succ k ih => simp [drawMany, ih]
@[simp] theorem drawMany_refused (k : Nat) (s : State) : ((drawMany k s).2).refused = s.refused := by
  induction k generalizing s with
  | zero => rfl
  | succ k ih => simp [drawMany, ih]
@[simp] theorem drawMany_failure (k : Nat) (s : State) : ((drawMany k s).2).failure = s.failure := by
  induction k generalizing s with
  | zero => rfl
  | succ k ih => simp [drawMany, ih]
@[simp] theorem drawMany_results (k : Nat) (s : State) : ((drawMany k s).2).results = s.results := by
  induction k generalizing s with
  | zero => rfl
  | succ k ih => simp [drawMany, ih]
@[simp] theorem drawMany_trace (k : Nat) (s : State) : ((drawMany k s).2).trace = s.trace := by
  induction k generalizing s with
  | zero => rfl
  | succ k ih => simp [drawMany, ih]
@[simp] theorem drawMany_dest (k : Nat) (s : State) : ((drawMany k s).2).dest = s.dest := by
  induction k generalizing s with
  | zero => rfl
  | succ k ih => simp [drawMany, ih]

/-! ### `copyWindow` -/

@[simp] theorem copyWindow_params (ops : ReadOperands) (s : State) : (copyWindow ops s).params = s.params := by
  simp [copyWindow]
@[simp] theorem copyWindow_cardType (ops : ReadOperands) (s : State) : (copyWindow ops s).cardType = s.cardType := by
  simp [copyWindow]
@[simp] theorem copyWindow_sel (ops : ReadOperands) (s : State) : (copyWindow ops s).sel = s.sel := by
  simp [copyWindow]
@[simp] theorem copyWindow_work (ops : ReadOperands) (s : State) : (copyWindow ops s).work = s.work := by
  simp [copyWindow]
@[simp] theorem copyWindow_pos (ops : ReadOperands) (s : State) : (copyWindow ops s).pos = s.pos := by
  simp [copyWindow]
@[simp] theorem copyWindow_calls (ops : ReadOperands) (s : State) : (copyWindow ops s).calls = s.calls := by
  simp [copyWindow]
@[simp] theorem copyWindow_request (ops : ReadOperands) (s : State) : (copyWindow ops s).request = s.request := by
  simp [copyWindow]
@[simp] theorem copyWindow_refused (ops : ReadOperands) (s : State) : (copyWindow ops s).refused = s.refused := by
  simp [copyWindow]
@[simp] theorem copyWindow_failure (ops : ReadOperands) (s : State) : (copyWindow ops s).failure = s.failure := by
  simp [copyWindow]
@[simp] theorem copyWindow_results (ops : ReadOperands) (s : State) : (copyWindow ops s).results = s.results := by
  simp [copyWindow]
@[simp] theorem copyWindow_trace (ops : ReadOperands) (s : State) : (copyWindow ops s).trace = .copy ops.dst ops.ofs ops.cnt :: s.trace := by
  simp [copyWindow]

/-! ### `dstWrite` -/

@[simp] theorem dstWrite_params (dst : Handle) (i : Nat) (v : Byte) (s : State) : (dstWrite dst i v s).params = s.params := rfl
@[simp] theorem dstWrite_cardType (dst : Handle) (i : Nat) (v : Byte) (s : State) : (dstWrite dst i v s).cardType = s.cardType := rfl
@[simp] theorem dstWrite_sel (dst : Handle) (i : Nat) (v : Byte) (s : State) : (dstWrite dst i v s).sel = s.sel := rfl
@[simp] theorem dstWrite_work (dst : Handle) (i : Nat) (v : Byte) (s : State) : (dstWrite dst i v s).work = s.work := rfl
@[simp] theorem dstWrite_pos (dst : Handle) (i : Nat) (v : Byte) (s : State) : (dstWrite dst i v s).pos = s.pos := rfl
@[simp] theorem dstWrite_calls (dst : Handle) (i : Nat) (v : Byte) (s : State) : (dstWrite dst i v s).calls = s.calls := rfl
@[simp] theorem dstWrite_request (dst : Handle) (i : Nat) (v : Byte) (s : State) : (dstWrite dst i v s).request = s.request := rfl
@[simp] theorem dstWrite_refused (dst : Handle) (i : Nat) (v : Byte) (s : State) : (dstWrite dst i v s).refused = s.refused := rfl
@[simp] theorem dstWrite_failure (dst : Handle) (i : Nat) (v : Byte) (s : State) : (dstWrite dst i v s).failure = s.failure := rfl
@[simp] theorem dstWrite_results (dst : Handle) (i : Nat) (v : Byte) (s : State) : (dstWrite dst i v s).results = s.results := rfl
@[simp] theorem dstWrite_trace (dst : Handle) (i : Nat) (v : Byte) (s : State) : (dstWrite dst i v s).trace = .wr dst i v :: s.trace := rfl
@[simp] theorem dstWrite_dest (dst : Handle) (i : Nat) (v : Byte) (s : State) : (dstWrite dst i v s).dest = s.dest.write (destAddr dst i) v := rfl
@[simp] theorem dstWrite_incoming (dst : Handle) (i : Nat) (v : Byte) (s : State) : (dstWrite dst i v s).incoming = s.incoming := rfl
@[simp] theorem dstWrite_free (dst : Handle) (i : Nat) (v : Byte) (s : State) : (dstWrite dst i v s).free = s.free := rfl

/-! ### `scrambleWindow` -/

@[simp] theorem scrambleWindow_params (ops : ReadOperands) (s : State) : (scrambleWindow ops s).params = s.params := rfl
@[simp] theorem scrambleWindow_cardType (ops : ReadOperands) (s : State) : (scrambleWindow ops s).cardType = s.cardType := rfl
@[simp] theorem scrambleWindow_sel (ops : ReadOperands) (s : State) : (scrambleWindow ops s).sel = s.sel := rfl
@[simp] theorem scrambleWindow_work (ops : ReadOperands) (s : State) : (scrambleWindow ops s).work = s.work := rfl
@[simp] theorem scrambleWindow_pos (ops : ReadOperands) (s : State) : (scrambleWindow ops s).pos = s.pos := rfl
@[simp] theorem scrambleWindow_calls (ops : ReadOperands) (s : State) : (scrambleWindow ops s).calls = s.calls := rfl
@[simp] theorem scrambleWindow_request (ops : ReadOperands) (s : State) : (scrambleWindow ops s).request = s.request := rfl
@[simp] theorem scrambleWindow_refused (ops : ReadOperands) (s : State) : (scrambleWindow ops s).refused = s.refused := rfl
@[simp] theorem scrambleWindow_failure (ops : ReadOperands) (s : State) : (scrambleWindow ops s).failure = s.failure := rfl
@[simp] theorem scrambleWindow_results (ops : ReadOperands) (s : State) : (scrambleWindow ops s).results = s.results := rfl
@[simp] theorem scrambleWindow_trace (ops : ReadOperands) (s : State) : (scrambleWindow ops s).trace = s.trace := rfl
@[simp] theorem scrambleWindow_dest (ops : ReadOperands) (s : State) : (scrambleWindow ops s).dest = s.dest.writeList (destAddr ops.dst 0) (freeBytes s.free ops.cnt.toNat) := rfl
@[simp] theorem scrambleWindow_incoming (ops : ReadOperands) (s : State) : (scrambleWindow ops s).incoming = s.incoming := rfl
@[simp] theorem scrambleWindow_free (ops : ReadOperands) (s : State) : (scrambleWindow ops s).free = s.free + ops.cnt.toNat := rfl

/-! ### `enterCall` -/

@[simp] theorem enterCall_params (code : Byte) (arg : Word32) (s : State) : (enterCall code arg s).params = s.params := rfl
@[simp] theorem enterCall_cardType (code : Byte) (arg : Word32) (s : State) : (enterCall code arg s).cardType = s.cardType := rfl
@[simp] theorem enterCall_sel (code : Byte) (arg : Word32) (s : State) : (enterCall code arg s).sel = s.sel := rfl
@[simp] theorem enterCall_work (code : Byte) (arg : Word32) (s : State) : (enterCall code arg s).work = s.work := rfl
@[simp] theorem enterCall_pos (code : Byte) (arg : Word32) (s : State) : (enterCall code arg s).pos = s.pos := rfl
@[simp] theorem enterCall_calls (code : Byte) (arg : Word32) (s : State) : (enterCall code arg s).calls = callOf s.params.crc7Mode code arg :: s.calls := rfl
@[simp] theorem enterCall_request (code : Byte) (arg : Word32) (s : State) : (enterCall code arg s).request = s.request := rfl
@[simp] theorem enterCall_refused (code : Byte) (arg : Word32) (s : State) : (enterCall code arg s).refused = s.refused := rfl
@[simp] theorem enterCall_failure (code : Byte) (arg : Word32) (s : State) : (enterCall code arg s).failure = s.failure := rfl
@[simp] theorem enterCall_results (code : Byte) (arg : Word32) (s : State) : (enterCall code arg s).results = s.results := rfl
@[simp] theorem enterCall_trace (code : Byte) (arg : Word32) (s : State) : (enterCall code arg s).trace = s.trace := rfl
@[simp] theorem enterCall_dest (code : Byte) (arg : Word32) (s : State) : (enterCall code arg s).dest = s.dest := rfl
@[simp] theorem enterCall_incoming (code : Byte) (arg : Word32) (s : State) : (enterCall code arg s).incoming = s.incoming := rfl
@[simp] theorem enterCall_free (code : Byte) (arg : Word32) (s : State) : (enterCall code arg s).free = s.free := rfl

/-! ### `refuseRequest` -/

@[simp] theorem refuseRequest_params (s : State) : (refuseRequest s).params = s.params := rfl
@[simp] theorem refuseRequest_cardType (s : State) : (refuseRequest s).cardType = s.cardType := rfl
@[simp] theorem refuseRequest_sel (s : State) : (refuseRequest s).sel = s.sel := rfl
@[simp] theorem refuseRequest_work (s : State) : (refuseRequest s).work = s.work := rfl
@[simp] theorem refuseRequest_pos (s : State) : (refuseRequest s).pos = s.pos := rfl
@[simp] theorem refuseRequest_calls (s : State) : (refuseRequest s).calls = s.calls := rfl
@[simp] theorem refuseRequest_request (s : State) : (refuseRequest s).request = none := rfl
@[simp] theorem refuseRequest_refused (s : State) : (refuseRequest s).refused = true := rfl
@[simp] theorem refuseRequest_failure (s : State) : (refuseRequest s).failure = s.failure := rfl
@[simp] theorem refuseRequest_results (s : State) : (refuseRequest s).results = s.results := rfl
@[simp] theorem refuseRequest_trace (s : State) : (refuseRequest s).trace = s.trace := rfl
@[simp] theorem refuseRequest_dest (s : State) : (refuseRequest s).dest = s.dest := rfl
@[simp] theorem refuseRequest_incoming (s : State) : (refuseRequest s).incoming = s.incoming := rfl
@[simp] theorem refuseRequest_free (s : State) : (refuseRequest s).free = s.free := rfl

/-! ### `offer` -/

@[simp] theorem offer_params (r : Request) (s : State) : (offer r s).params = s.params := rfl
@[simp] theorem offer_cardType (r : Request) (s : State) : (offer r s).cardType = s.cardType := rfl
@[simp] theorem offer_sel (r : Request) (s : State) : (offer r s).sel = s.sel := rfl
@[simp] theorem offer_work (r : Request) (s : State) : (offer r s).work = s.work := rfl
@[simp] theorem offer_pos (r : Request) (s : State) : (offer r s).pos = s.pos := rfl
@[simp] theorem offer_calls (r : Request) (s : State) : (offer r s).calls = s.calls := rfl
@[simp] theorem offer_request (r : Request) (s : State) : (offer r s).request = some r := rfl
@[simp] theorem offer_refused (r : Request) (s : State) : (offer r s).refused = s.refused := rfl
@[simp] theorem offer_failure (r : Request) (s : State) : (offer r s).failure = s.failure := rfl
@[simp] theorem offer_results (r : Request) (s : State) : (offer r s).results = s.results := rfl
@[simp] theorem offer_trace (r : Request) (s : State) : (offer r s).trace = s.trace := rfl
@[simp] theorem offer_dest (r : Request) (s : State) : (offer r s).dest = s.dest := rfl
@[simp] theorem offer_incoming (r : Request) (s : State) : (offer r s).incoming = s.incoming := rfl
@[simp] theorem offer_free (r : Request) (s : State) : (offer r s).free = s.free := rfl

/-! ### `acceptRequest` -/

@[simp] theorem acceptRequest_params (s : State) : (acceptRequest s).params = s.params := rfl
@[simp] theorem acceptRequest_cardType (s : State) : (acceptRequest s).cardType = s.cardType := rfl
@[simp] theorem acceptRequest_sel (s : State) : (acceptRequest s).sel = s.sel := rfl
@[simp] theorem acceptRequest_work (s : State) : (acceptRequest s).work = Work.unwritten := rfl
@[simp] theorem acceptRequest_pos (s : State) : (acceptRequest s).pos = s.pos := rfl
@[simp] theorem acceptRequest_calls (s : State) : (acceptRequest s).calls = s.calls := rfl
@[simp] theorem acceptRequest_request (s : State) : (acceptRequest s).request = none := rfl
@[simp] theorem acceptRequest_refused (s : State) : (acceptRequest s).refused = s.refused := rfl
@[simp] theorem acceptRequest_failure (s : State) : (acceptRequest s).failure = none := rfl
@[simp] theorem acceptRequest_results (s : State) : (acceptRequest s).results = s.results := rfl
@[simp] theorem acceptRequest_trace (s : State) : (acceptRequest s).trace = s.trace := rfl
@[simp] theorem acceptRequest_dest (s : State) : (acceptRequest s).dest = s.dest := rfl
@[simp] theorem acceptRequest_incoming (s : State) : (acceptRequest s).incoming = s.incoming := rfl
@[simp] theorem acceptRequest_free (s : State) : (acceptRequest s).free = s.free := rfl

/-! ### `returnToHost` -/

@[simp] theorem returnToHost_params (r : OpResult) (s : State) : (returnToHost r s).params = s.params := rfl
@[simp] theorem returnToHost_cardType (r : OpResult) (s : State) : (returnToHost r s).cardType = s.cardType := rfl
@[simp] theorem returnToHost_sel (r : OpResult) (s : State) : (returnToHost r s).sel = s.sel := rfl
@[simp] theorem returnToHost_work (r : OpResult) (s : State) : (returnToHost r s).work = { Work.unwritten with result := s.work.result } := rfl
@[simp] theorem returnToHost_pos (r : OpResult) (s : State) : (returnToHost r s).pos = .idle := rfl
@[simp] theorem returnToHost_calls (r : OpResult) (s : State) : (returnToHost r s).calls = s.calls := rfl
@[simp] theorem returnToHost_request (r : OpResult) (s : State) : (returnToHost r s).request = s.request := rfl
@[simp] theorem returnToHost_refused (r : OpResult) (s : State) : (returnToHost r s).refused = s.refused := rfl
@[simp] theorem returnToHost_failure (r : OpResult) (s : State) : (returnToHost r s).failure = s.failure := rfl
@[simp] theorem returnToHost_results (r : OpResult) (s : State) : (returnToHost r s).results = r :: s.results := rfl
@[simp] theorem returnToHost_trace (r : OpResult) (s : State) : (returnToHost r s).trace = s.trace := rfl
@[simp] theorem returnToHost_dest (r : OpResult) (s : State) : (returnToHost r s).dest = s.dest := rfl
@[simp] theorem returnToHost_incoming (r : OpResult) (s : State) : (returnToHost r s).incoming = s.incoming := rfl
@[simp] theorem returnToHost_free (r : OpResult) (s : State) : (returnToHost r s).free = s.free := rfl

/-! ### `failEntry` -/

@[simp] theorem failEntry_params (f : Failure) (s : State) : (failEntry f s).params = s.params := by
  unfold failEntry; split <;> rfl
@[simp] theorem failEntry_cardType (f : Failure) (s : State) : (failEntry f s).cardType = s.cardType := by
  unfold failEntry; split <;> rfl
@[simp] theorem failEntry_sel (f : Failure) (s : State) : (failEntry f s).sel = s.sel := by
  unfold failEntry; split <;> rfl
@[simp] theorem failEntry_calls (f : Failure) (s : State) : (failEntry f s).calls = s.calls := by
  unfold failEntry; split <;> rfl
@[simp] theorem failEntry_request (f : Failure) (s : State) : (failEntry f s).request = s.request := by
  unfold failEntry; split <;> rfl
@[simp] theorem failEntry_refused (f : Failure) (s : State) : (failEntry f s).refused = s.refused := by
  unfold failEntry; split <;> rfl
@[simp] theorem failEntry_failure (f : Failure) (s : State) : (failEntry f s).failure = some f := by
  unfold failEntry; split <;> rfl
@[simp] theorem failEntry_results (f : Failure) (s : State) : (failEntry f s).results = s.results := by
  unfold failEntry; split <;> rfl
@[simp] theorem failEntry_trace (f : Failure) (s : State) : (failEntry f s).trace = s.trace := by
  unfold failEntry; split <;> rfl
@[simp] theorem failEntry_dest (f : Failure) (s : State) : (failEntry f s).dest = s.dest := by
  unfold failEntry; split <;> rfl
@[simp] theorem failEntry_incoming (f : Failure) (s : State) : (failEntry f s).incoming = s.incoming := by
  unfold failEntry; split <;> rfl
@[simp] theorem failEntry_free (f : Failure) (s : State) : (failEntry f s).free = s.free := by
  unfold failEntry; split <;> rfl

/-! ### `bracketEvent` -/

@[simp] theorem bracketEvent_params (k : Fin 4) (s : State) : (bracketEvent k s).params = s.params := by
  unfold bracketEvent; split <;> simp
@[simp] theorem bracketEvent_cardType (k : Fin 4) (s : State) : (bracketEvent k s).cardType = s.cardType := by
  unfold bracketEvent; split <;> simp
@[simp] theorem bracketEvent_work (k : Fin 4) (s : State) : (bracketEvent k s).work = s.work := by
  unfold bracketEvent; split <;> simp
@[simp] theorem bracketEvent_pos (k : Fin 4) (s : State) : (bracketEvent k s).pos = s.pos := by
  unfold bracketEvent; split <;> simp
@[simp] theorem bracketEvent_calls (k : Fin 4) (s : State) : (bracketEvent k s).calls = s.calls := by
  unfold bracketEvent; split <;> simp
@[simp] theorem bracketEvent_request (k : Fin 4) (s : State) : (bracketEvent k s).request = s.request := by
  unfold bracketEvent; split <;> simp
@[simp] theorem bracketEvent_refused (k : Fin 4) (s : State) : (bracketEvent k s).refused = s.refused := by
  unfold bracketEvent; split <;> simp
@[simp] theorem bracketEvent_failure (k : Fin 4) (s : State) : (bracketEvent k s).failure = s.failure := by
  unfold bracketEvent; split <;> simp
@[simp] theorem bracketEvent_results (k : Fin 4) (s : State) : (bracketEvent k s).results = s.results := by
  unfold bracketEvent; split <;> simp
@[simp] theorem bracketEvent_dest (k : Fin 4) (s : State) : (bracketEvent k s).dest = s.dest := by
  unfold bracketEvent; split <;> simp

/-! ### `gotoInit` -/

@[simp] theorem gotoInit_params (p : InitPos) (s : State) : (gotoInit p s).params = s.params := rfl
@[simp] theorem gotoInit_cardType (p : InitPos) (s : State) : (gotoInit p s).cardType = s.cardType := rfl
@[simp] theorem gotoInit_sel (p : InitPos) (s : State) : (gotoInit p s).sel = s.sel := rfl
@[simp] theorem gotoInit_work (p : InitPos) (s : State) : (gotoInit p s).work = s.work := rfl
@[simp] theorem gotoInit_pos (p : InitPos) (s : State) : (gotoInit p s).pos = .initOp p := rfl
@[simp] theorem gotoInit_calls (p : InitPos) (s : State) : (gotoInit p s).calls = s.calls := rfl
@[simp] theorem gotoInit_request (p : InitPos) (s : State) : (gotoInit p s).request = s.request := rfl
@[simp] theorem gotoInit_refused (p : InitPos) (s : State) : (gotoInit p s).refused = s.refused := rfl
@[simp] theorem gotoInit_failure (p : InitPos) (s : State) : (gotoInit p s).failure = s.failure := rfl
@[simp] theorem gotoInit_results (p : InitPos) (s : State) : (gotoInit p s).results = s.results := rfl
@[simp] theorem gotoInit_trace (p : InitPos) (s : State) : (gotoInit p s).trace = s.trace := rfl
@[simp] theorem gotoInit_dest (p : InitPos) (s : State) : (gotoInit p s).dest = s.dest := rfl
@[simp] theorem gotoInit_incoming (p : InitPos) (s : State) : (gotoInit p s).incoming = s.incoming := rfl
@[simp] theorem gotoInit_free (p : InitPos) (s : State) : (gotoInit p s).free = s.free := rfl

/-! ### `callFromInit` -/

@[simp] theorem callFromInit_params (p : InitPos) (code : Byte) (arg : Word32) (s : State) : (callFromInit p code arg s).params = s.params := rfl
@[simp] theorem callFromInit_cardType (p : InitPos) (code : Byte) (arg : Word32) (s : State) : (callFromInit p code arg s).cardType = s.cardType := rfl
@[simp] theorem callFromInit_sel (p : InitPos) (code : Byte) (arg : Word32) (s : State) : (callFromInit p code arg s).sel = s.sel := rfl
@[simp] theorem callFromInit_work (p : InitPos) (code : Byte) (arg : Word32) (s : State) : (callFromInit p code arg s).work = s.work := rfl
@[simp] theorem callFromInit_pos (p : InitPos) (code : Byte) (arg : Word32) (s : State) : (callFromInit p code arg s).pos = .initOp p := rfl
@[simp] theorem callFromInit_calls (p : InitPos) (code : Byte) (arg : Word32) (s : State) : (callFromInit p code arg s).calls = callOf s.params.crc7Mode code arg :: s.calls := rfl
@[simp] theorem callFromInit_request (p : InitPos) (code : Byte) (arg : Word32) (s : State) : (callFromInit p code arg s).request = s.request := rfl
@[simp] theorem callFromInit_refused (p : InitPos) (code : Byte) (arg : Word32) (s : State) : (callFromInit p code arg s).refused = s.refused := rfl
@[simp] theorem callFromInit_failure (p : InitPos) (code : Byte) (arg : Word32) (s : State) : (callFromInit p code arg s).failure = s.failure := rfl
@[simp] theorem callFromInit_results (p : InitPos) (code : Byte) (arg : Word32) (s : State) : (callFromInit p code arg s).results = s.results := rfl
@[simp] theorem callFromInit_trace (p : InitPos) (code : Byte) (arg : Word32) (s : State) : (callFromInit p code arg s).trace = s.trace := rfl
@[simp] theorem callFromInit_dest (p : InitPos) (code : Byte) (arg : Word32) (s : State) : (callFromInit p code arg s).dest = s.dest := rfl
@[simp] theorem callFromInit_incoming (p : InitPos) (code : Byte) (arg : Word32) (s : State) : (callFromInit p code arg s).incoming = s.incoming := rfl
@[simp] theorem callFromInit_free (p : InitPos) (code : Byte) (arg : Word32) (s : State) : (callFromInit p code arg s).free = s.free := rfl

/-! ### `readBuf` -/

@[simp] theorem readBuf_params (k : Fin 4) (s : State) : (readBuf k s).params = s.params := by
  simp [readBuf]
@[simp] theorem readBuf_cardType (k : Fin 4) (s : State) : (readBuf k s).cardType = s.cardType := by
  simp [readBuf]
@[simp] theorem readBuf_sel (k : Fin 4) (s : State) : (readBuf k s).sel = s.sel := by
  simp [readBuf]
@[simp] theorem readBuf_pos (k : Fin 4) (s : State) : (readBuf k s).pos = s.pos := by
  simp [readBuf]
@[simp] theorem readBuf_calls (k : Fin 4) (s : State) : (readBuf k s).calls = s.calls := by
  simp [readBuf]
@[simp] theorem readBuf_request (k : Fin 4) (s : State) : (readBuf k s).request = s.request := by
  simp [readBuf]
@[simp] theorem readBuf_refused (k : Fin 4) (s : State) : (readBuf k s).refused = s.refused := by
  simp [readBuf]
@[simp] theorem readBuf_failure (k : Fin 4) (s : State) : (readBuf k s).failure = s.failure := by
  simp [readBuf]
@[simp] theorem readBuf_results (k : Fin 4) (s : State) : (readBuf k s).results = s.results := by
  simp [readBuf]
@[simp] theorem readBuf_trace (k : Fin 4) (s : State) : (readBuf k s).trace = .xchg Config.dummy (draw s).1 :: s.trace := by
  simp [readBuf]
@[simp] theorem readBuf_dest (k : Fin 4) (s : State) : (readBuf k s).dest = s.dest := by
  simp [readBuf]
@[simp] theorem readBuf_incoming (k : Fin 4) (s : State) : (readBuf k s).incoming = s.incoming.tail := by
  simp [readBuf]
@[simp] theorem readBuf_free (k : Fin 4) (s : State) : (readBuf k s).free = (draw s).2.free := by
  simp [readBuf]

/-! ### `warmEvent` -/

@[simp] theorem warmEvent_params (k : Nat) (s : State) : (warmEvent k s).params = s.params := by
  unfold warmEvent; split <;> (try split) <;> simp
@[simp] theorem warmEvent_cardType (k : Nat) (s : State) : (warmEvent k s).cardType = s.cardType := by
  unfold warmEvent; split <;> (try split) <;> simp
@[simp] theorem warmEvent_work (k : Nat) (s : State) : (warmEvent k s).work = s.work := by
  unfold warmEvent; split <;> (try split) <;> simp
@[simp] theorem warmEvent_pos (k : Nat) (s : State) : (warmEvent k s).pos = s.pos := by
  unfold warmEvent; split <;> (try split) <;> simp
@[simp] theorem warmEvent_calls (k : Nat) (s : State) : (warmEvent k s).calls = s.calls := by
  unfold warmEvent; split <;> (try split) <;> simp
@[simp] theorem warmEvent_request (k : Nat) (s : State) : (warmEvent k s).request = s.request := by
  unfold warmEvent; split <;> (try split) <;> simp
@[simp] theorem warmEvent_refused (k : Nat) (s : State) : (warmEvent k s).refused = s.refused := by
  unfold warmEvent; split <;> (try split) <;> simp
@[simp] theorem warmEvent_failure (k : Nat) (s : State) : (warmEvent k s).failure = s.failure := by
  unfold warmEvent; split <;> (try split) <;> simp
@[simp] theorem warmEvent_results (k : Nat) (s : State) : (warmEvent k s).results = s.results := by
  unfold warmEvent; split <;> (try split) <;> simp
@[simp] theorem warmEvent_dest (k : Nat) (s : State) : (warmEvent k s).dest = s.dest := by
  unfold warmEvent; split <;> (try split) <;> simp

/-! ### `gotoRead` -/

@[simp] theorem gotoRead_params (ops : ReadOperands) (p : ReadPos) (s : State) : (gotoRead ops p s).params = s.params := rfl
@[simp] theorem gotoRead_cardType (ops : ReadOperands) (p : ReadPos) (s : State) : (gotoRead ops p s).cardType = s.cardType := rfl
@[simp] theorem gotoRead_sel (ops : ReadOperands) (p : ReadPos) (s : State) : (gotoRead ops p s).sel = s.sel := rfl
@[simp] theorem gotoRead_work (ops : ReadOperands) (p : ReadPos) (s : State) : (gotoRead ops p s).work = s.work := rfl
@[simp] theorem gotoRead_pos (ops : ReadOperands) (p : ReadPos) (s : State) : (gotoRead ops p s).pos = .readOp ops p := rfl
@[simp] theorem gotoRead_calls (ops : ReadOperands) (p : ReadPos) (s : State) : (gotoRead ops p s).calls = s.calls := rfl
@[simp] theorem gotoRead_request (ops : ReadOperands) (p : ReadPos) (s : State) : (gotoRead ops p s).request = s.request := rfl
@[simp] theorem gotoRead_refused (ops : ReadOperands) (p : ReadPos) (s : State) : (gotoRead ops p s).refused = s.refused := rfl
@[simp] theorem gotoRead_failure (ops : ReadOperands) (p : ReadPos) (s : State) : (gotoRead ops p s).failure = s.failure := rfl
@[simp] theorem gotoRead_results (ops : ReadOperands) (p : ReadPos) (s : State) : (gotoRead ops p s).results = s.results := rfl
@[simp] theorem gotoRead_trace (ops : ReadOperands) (p : ReadPos) (s : State) : (gotoRead ops p s).trace = s.trace := rfl
@[simp] theorem gotoRead_dest (ops : ReadOperands) (p : ReadPos) (s : State) : (gotoRead ops p s).dest = s.dest := rfl
@[simp] theorem gotoRead_incoming (ops : ReadOperands) (p : ReadPos) (s : State) : (gotoRead ops p s).incoming = s.incoming := rfl
@[simp] theorem gotoRead_free (ops : ReadOperands) (p : ReadPos) (s : State) : (gotoRead ops p s).free = s.free := rfl

/-! ### `destAfter` -/

@[simp] theorem destAfter_params (ops : ReadOperands) (r : ReadResult) (s : State) : (destAfter ops r s).params = s.params := by
  cases r <;> rfl
@[simp] theorem destAfter_cardType (ops : ReadOperands) (r : ReadResult) (s : State) : (destAfter ops r s).cardType = s.cardType := by
  cases r <;> rfl
@[simp] theorem destAfter_sel (ops : ReadOperands) (r : ReadResult) (s : State) : (destAfter ops r s).sel = s.sel := by
  cases r <;> rfl
@[simp] theorem destAfter_work (ops : ReadOperands) (r : ReadResult) (s : State) : (destAfter ops r s).work = s.work := by
  cases r <;> rfl
@[simp] theorem destAfter_pos (ops : ReadOperands) (r : ReadResult) (s : State) : (destAfter ops r s).pos = s.pos := by
  cases r <;> rfl
@[simp] theorem destAfter_calls (ops : ReadOperands) (r : ReadResult) (s : State) : (destAfter ops r s).calls = s.calls := by
  cases r <;> rfl
@[simp] theorem destAfter_request (ops : ReadOperands) (r : ReadResult) (s : State) : (destAfter ops r s).request = s.request := by
  cases r <;> rfl
@[simp] theorem destAfter_refused (ops : ReadOperands) (r : ReadResult) (s : State) : (destAfter ops r s).refused = s.refused := by
  cases r <;> rfl
@[simp] theorem destAfter_failure (ops : ReadOperands) (r : ReadResult) (s : State) : (destAfter ops r s).failure = s.failure := by
  cases r <;> rfl
@[simp] theorem destAfter_results (ops : ReadOperands) (r : ReadResult) (s : State) : (destAfter ops r s).results = s.results := by
  cases r <;> rfl
@[simp] theorem destAfter_trace (ops : ReadOperands) (r : ReadResult) (s : State) : (destAfter ops r s).trace = s.trace := by
  cases r <;> rfl
@[simp] theorem destAfter_incoming (ops : ReadOperands) (r : ReadResult) (s : State) : (destAfter ops r s).incoming = s.incoming := by
  cases r <;> rfl

/-! ### `startRead` -/

@[simp] theorem startRead_params (ops : ReadOperands) (s : State) : (startRead ops s).params = s.params := rfl
@[simp] theorem startRead_cardType (ops : ReadOperands) (s : State) : (startRead ops s).cardType = s.cardType := rfl
@[simp] theorem startRead_sel (ops : ReadOperands) (s : State) : (startRead ops s).sel = s.sel := rfl
@[simp] theorem startRead_work (ops : ReadOperands) (s : State) : (startRead ops s).work = { Work.unwritten with addr := some (translateBlock ops.blk s.cardType), result := some .error } := rfl
@[simp] theorem startRead_pos (ops : ReadOperands) (s : State) : (startRead ops s).pos = .readOp ops .cmd17 := rfl
@[simp] theorem startRead_calls (ops : ReadOperands) (s : State) : (startRead ops s).calls = callOf s.params.crc7Mode codeCmd17 (translateBlock ops.blk s.cardType) :: s.calls := rfl
@[simp] theorem startRead_request (ops : ReadOperands) (s : State) : (startRead ops s).request = none := rfl
@[simp] theorem startRead_refused (ops : ReadOperands) (s : State) : (startRead ops s).refused = s.refused := rfl
@[simp] theorem startRead_failure (ops : ReadOperands) (s : State) : (startRead ops s).failure = none := rfl
@[simp] theorem startRead_results (ops : ReadOperands) (s : State) : (startRead ops s).results = s.results := rfl
@[simp] theorem startRead_trace (ops : ReadOperands) (s : State) : (startRead ops s).trace = s.trace := rfl
@[simp] theorem startRead_dest (ops : ReadOperands) (s : State) : (startRead ops s).dest = s.dest := rfl
@[simp] theorem startRead_incoming (ops : ReadOperands) (s : State) : (startRead ops s).incoming = s.incoming := rfl
@[simp] theorem startRead_free (ops : ReadOperands) (s : State) : (startRead ops s).free = s.free := rfl

/-! ### `failEntry`, by operation -/

@[simp] theorem failEntry_initOp (f : Failure) (s : State) (p : InitPos) (h : s.pos = .initOp p) :
    failEntry f s = { s with failure := some f, work.ty := some 0x00#8, pos := .initOp .clean } := by
  simp [failEntry, h]

@[simp] theorem failEntry_readOp (f : Failure) (s : State) (ops : ReadOperands) (p : ReadPos)
    (h : s.pos = .readOp ops p) :
    failEntry f s =
      { s with failure := some f, work.result := some .error, pos := .readOp ops .clean } := by
  simp [failEntry, h]

end Sys2Proof.Machine
end

