-- ==== Sys2Proof/Laws/Steps.lean ====
section
/-! SUPPORT. What each shared operation can answer: one inversion lemma per operation, which says once everything it
does when it gives a next state. -/

namespace Sys2Proof.Machine

/-! ## Plumbing -/

@[simp] theorem andThen_next (s : State) (f : State → Out) : andThen (.next s) f = f s := rfl

/-- `andThen` gives a next state exactly through one of its first part. -/
theorem andThen_eq_next {o : Out} {f : State → Out} {t : State} :
    andThen o f = .next t ↔ ∃ u, o = .next u ∧ f u = .next t := by
  cases o <;> simp [andThen]

@[simp] theorem need_some {α : Type} (v : α) (name : WorkReg) (k : α → Out) : need (some v) name k = k v := rfl

@[simp] theorem need_none {α : Type} (name : WorkReg) (k : α → Out) :
    need (none : Option α) name k = .fault (.unwrittenRegister name) := rfl

/-- A register read gives a next state exactly when the register holds a value (R27). -/
theorem need_eq_next {α : Type} {r : Option α} {name : WorkReg} {k : α → Out} {t : State} :
    need r name k = .next t ↔ ∃ v, r = some v ∧ k v = .next t := by
  cases r <;> simp [need]

/-- A host operation gives a next state only in a legal configuration (R208). -/
theorem underLegalParams_eq_next {s t : State} {k : Out} :
    underLegalParams s k = .next t ↔ paramsLegal s.params = true ∧ k = .next t := by
  unfold underLegalParams
  split <;> simp_all

/-! ## Draws -/

/-- A drawn byte is the first listed one, or else the next free value (R10). -/
theorem draw_cases (s : State) :
    (∃ b l, s.incoming = b :: l ∧ draw s = (b, { s with incoming := l })) ∨
    (s.incoming = [] ∧ draw s = (Config.freeByte s.free, { s with free := s.free + 1 })) := by
  unfold draw
  split
  · rename_i b l h; exact .inl ⟨b, l, h, rfl⟩
  · rename_i h; exact .inr ⟨h, rfl⟩

/-- Taking a byte changes only the bytes to come and the count of free values. -/
theorem draw_only (s : State) : ∃ l f, (draw s).2 = { s with incoming := l, free := f } := by
  rcases draw_cases s with ⟨b, l, _, h⟩ | ⟨_, h⟩
  · exact ⟨l, s.free, by rw [h]⟩
  · exact ⟨s.incoming, s.free + 1, by rw [h]⟩

theorem draw_of_cons (s : State) (b : Byte) (l : List Byte) (h : s.incoming = b :: l) :
    draw s = (b, { s with incoming := l }) := by
  simp [draw, h]

@[simp] theorem drawMany_length (k : Nat) (s : State) : (drawMany k s).1.length = k := by
  induction k generalizing s with
  | zero => rfl
  | succ k ih => simp [drawMany, ih]

/-! ## The dispatcher -/

/-- What an event of the dispatcher does (R120 to R124). -/
theorem dispatchEvent_cases {s t : State} (h : dispatchEvent s = .next t) :
    (s.calls = [] ∧ t = s) ∨
    (∃ w rest, s.calls = ⟨w, .prefixWait⟩ :: rest ∧ t = s) ∨
    (∃ w rest, s.calls = ⟨w, .prefixDue⟩ :: rest ∧ t = prefixStep w rest s) ∨
    (∃ w k rest, s.calls = ⟨w, .bracket k⟩ :: rest ∧ t = bracketStep w k rest s) ∨
    (∃ w k rest, s.calls = ⟨w, .frame k⟩ :: rest ∧ t = frameStep w k rest s) ∨
    (∃ w rest, s.calls = ⟨w, .poll⟩ :: rest ∧ pollStep w rest s = .next t) := by
  unfold dispatchEvent at h
  split at h <;> simp_all

/-- What a poll read does (R124). -/
theorem pollStep_cases {w : Frame} {rest : List Call} {s t : State} (h : pollStep w rest s = .next t) :
    ∃ n, s.work.n = some n ∧
      t = { (exchange Config.dummy s).2 with
        work := { s.work with res := some (draw s).1, n := some (n - 1#8) }
        calls := if pollEnds (draw s).1 (n - 1#8) then rest else ⟨w, .poll⟩ :: rest } := by
  obtain ⟨n, hn, h⟩ := need_eq_next.mp h
  refine ⟨n, hn, ?_⟩
  injection h with h
  rw [← h]
  simp only [exchange_work]
  rfl

/-- When a card command has a next state (R120, D30). -/
theorem dispatch_cases {code : Byte} {arg : Word32} {s t : State} (h : dispatch code arg s = .next t) :
    (s.calls = [] ∧ s.pos = .idle ∧ dispatchEvent (enterCall code arg s) = .next t) ∨
    (∃ c rest, s.calls = c :: rest ∧ c.frame = frameOf s.params.crc7Mode code arg ∧ dispatchEvent s = .next t) := by
  unfold dispatch at h
  split at h <;> split at h <;> simp_all

/-- A card command is the dispatch of its code and argument (R128 to R135). -/
theorem exec_of_command {i : Instr} {code : Byte} {arg : Word32} (h : commandOf i = some (code, arg)) (s : State) :
    exec i s = dispatch code arg s := by
  cases i with
  | acmd41 hcs => cases hcs <;> cases h <;> rfl
  | _ => cases h <;> rfl

/-- At its own call, a card command makes the event due. -/
theorem dispatch_at_call {code : Byte} {arg : Word32} {s : State} {c : Call} {rest : List Call}
    (hc : s.calls = c :: rest) (hf : c.frame = frameOf s.params.crc7Mode code arg) :
    dispatch code arg s = dispatchEvent s := by
  simp [dispatch, hc, hf]

/-- From `IDLE` a card command begins. -/
theorem dispatch_from_idle {code : Byte} {arg : Word32} {s : State} (hc : s.calls = []) (hp : s.pos = .idle) :
    dispatch code arg s = dispatchEvent (enterCall code arg s) := by
  simp [dispatch, hc, hp]

/-! ## CRC-16 -/

/-- The CRC-16 of a list in two parts (R93). -/
theorem crc16_append (a b : List Byte) : crc16 (a ++ b) = b.foldl crc16Byte (crc16 a) := by
  simp [crc16, List.foldl_append]

/-! ## Returns -/

/-- What the return of a prefix does (R121). -/
theorem prefixReturn_cases {s t : State} (h : prefixReturn s = .next t) :
    (∃ w rest res, s.calls = ⟨w, .prefixWait⟩ :: rest ∧ s.work.res = some res ∧
      t = { s with calls := if prefixAborts res then rest else ⟨w, .bracket 0⟩ :: rest }) ∨
    ((∀ w rest, s.calls ≠ ⟨w, .prefixWait⟩ :: rest) ∧ t = s) := by
  unfold prefixReturn at h
  split at h
  · rename_i w rest hc
    obtain ⟨res, hr, h⟩ := need_eq_next.mp h
    refine .inl ⟨w, rest, res, hc, hr, ?_⟩
    simpa using h.symm
  · rename_i hne
    refine .inr ⟨hne, ?_⟩
    simpa using h.symm

/-- With a call in progress whose prefix has not returned, nothing is resolved. -/
theorem settle_of_call {s : State} {c : Call} {rest : List Call} (hc : s.calls = c :: rest)
    (hp : c.pos ≠ .prefixWait) : settle s = .next s := by
  obtain ⟨w, p⟩ := c
  have h1 : prefixReturn s = .next s := by
    unfold prefixReturn
    split
    · rename_i h; simp_all
    · rfl
  simp [settle, h1, operationReturn, hc]

/-- With no call in progress, the operation goes on from its position. -/
theorem settle_of_no_call {s : State} (hc : s.calls = []) : settle s = operationReturn s := by
  have h1 : prefixReturn s = .next s := by
    unfold prefixReturn
    split
    · rename_i h; simp_all
    · rfl
  simp [settle, h1]

/-- At `IDLE` with no call in progress nothing is resolved. -/
theorem settle_idle {s : State} (hc : s.calls = []) (hp : s.pos = .idle) : settle s = .next s := by
  simp [settle_of_no_call hc, operationReturn, hc, hp]

/-! ## The step -/

/-- What a step does when it gives a next state: it stays at rest, refuses a request of a reserved operation, or
makes the event of the instruction fetched and resolves returns (R28, R30). -/
theorem step_cases {s t : State} (h : step s = .next t) :
    (fetch s = .nothing ∧ t = s) ∨
    (fetch s = .reservedRequest ∧ t = refuseRequest s) ∨
    (∃ i u, fetch s = .instr i ∧ exec i s = .next u ∧ settle u = .next t) := by
  unfold step at h
  split at h
  · rename_i hf; exact .inl ⟨hf, by simpa using h.symm⟩
  · rename_i i hf
    obtain ⟨u, hu, ht⟩ := andThen_eq_next.mp h
    exact .inr (.inr ⟨i, u, hf, hu, ht⟩)
  · rename_i hf; exact .inr (.inl ⟨hf, by simpa using h.symm⟩)
  · simp at h

/-- Which instruction is fetched (R28, R29). -/
theorem fetch_cases {s : State} {i : Instr} (h : fetch s = .instr i) :
    (∃ r, s.request = some r ∧ decodeRequest r = .ok i) ∨
    (∃ c rest, s.request = none ∧ s.calls = c :: rest ∧ decodeFrame s.params.crc7Mode c.frame = .ok i) ∨
    (∃ p, s.request = none ∧ s.calls = [] ∧ s.pos = .initOp p ∧ i = .hostInitialize) ∨
    (∃ ops p, s.request = none ∧ s.calls = [] ∧ s.pos = .readOp ops p ∧
      i = .readPartial ops.dst ops.blk ops.ofs ops.cnt) := by
  unfold fetch at h
  split at h
  · rename_i r hr
    unfold fetchRequest at h
    split at h
    · rename_i j hj; simp at h; subst h; exact .inl ⟨r, hr, hj⟩
    · simp at h
  · rename_i hr
    split at h
    · rename_i c rest hc
      unfold fetchFrame at h
      split at h
      · rename_i j hj; simp at h; subst h; exact .inr (.inl ⟨c, rest, hr, hc, hj⟩)
      · simp at h
    · rename_i hc
      unfold fetchOperation at h
      split at h
      · simp at h
      · rename_i p hp; simp at h; exact .inr (.inr (.inl ⟨p, hr, hc, hp, h.symm⟩))
      · rename_i ops p hp; simp at h; exact .inr (.inr (.inr ⟨ops, p, hr, hc, hp, h.symm⟩))

end Sys2Proof.Machine
end

