-- ==== Sys2Proof/WellFormed.lean ====
section
/-! DEFINITION. Which instructions are well formed. The card commands are by their type: an operand stands only
where R85 lets it vary. A `READ_PARTIAL` is when its window lies inside one sector (R55, R201); one that is not can
be written (R96) and is refused when it runs (R30). -/

namespace Sys2Proof

/-- The instruction meets its precondition (R201). -/
def Instr.wellFormed (i : Instr) : Bool :=
  match i with
  | .cmd0 | .cmd1 | .cmd8 | .cmd16 | .cmd17 _ | .cmd55 | .cmd58 | .acmd41 _ | .hostInitialize => true
  | .readPartial _ _ ofs cnt => Machine.windowOk ofs cnt

end Sys2Proof
end

