-- ==== Sys2Proof/Tests/Slice0.lean ====
section
/-! SUPPORT. Tests: ill-formed terms, decoded words, single steps and witnesses of the statements' hypotheses. The
expected values are those of 95_test_vectors.md, or of the encoding tables, unless a comment says otherwise. -/

namespace Sys2Proof.Tests

open Sys2Proof.Machine

/-! ## Well-formedness: an ill-formed term for each bound of R201, and the corner cases it admits -/

theorem test_wf_offset_512 : (Instr.readPartial 0 0#32 512#10 1#10).wellFormed = false := by decide
theorem test_wf_count_0 : (Instr.readPartial 0 0#32 0#10 0#10).wellFormed = false := by decide
theorem test_wf_count_513 : (Instr.readPartial 0 0#32 0#10 513#10).wellFormed = false := by decide
theorem test_wf_sum_513 : (Instr.readPartial 0 0#32 511#10 2#10).wellFormed = false := by decide
/-- 1023 + 1023 wraps in 10 bits; the sum is taken without wrapping. -/
theorem test_wf_wraps : (Instr.readPartial 0 0#32 1023#10 1023#10).wellFormed = false := by decide
theorem test_wf_whole_sector : (Instr.readPartial 0 0#32 0#10 512#10).wellFormed = true := by decide
theorem test_wf_last_byte : (Instr.readPartial 0 0#32 511#10 1#10).wellFormed = true := by decide
theorem test_wf_command : Instr.cmd0.wellFormed = true := by decide

/-! ## Decoding: words written out from R80 to R85 and R96 (95_test_vectors.md 2.1) -/

theorem test_decode_cmd0 : decodeTableWord 48 0x400000000095 = some .cmd0 := by decide
theorem test_decode_cmd1 : decodeTableWord 48 0x410000000001 = some .cmd1 := by decide
theorem test_decode_cmd8 : decodeTableWord 48 0x48000001AA87 = some .cmd8 := by decide
theorem test_decode_cmd16 : decodeTableWord 48 0x500000020001 = some .cmd16 := by decide
theorem test_decode_cmd17 : decodeTableWord 48 0x510000140001 = some (.cmd17 0x1400#32) := by decide
theorem test_decode_cmd17_top : decodeTableWord 48 0x51FFFFFFFF01 = some (.cmd17 0xFFFFFFFF#32) := by decide
theorem test_decode_cmd55 : decodeTableWord 48 0x770000000001 = some .cmd55 := by decide
theorem test_decode_cmd58 : decodeTableWord 48 0x7A0000000001 = some .cmd58 := by decide
theorem test_decode_acmd41 : decodeTableWord 48 0x690000000001 = some (.acmd41 false) := by decide
theorem test_decode_acmd41_hcs : decodeTableWord 48 0x694000000001 = some (.acmd41 true) := by decide
theorem test_decode_initialize_request : decodeTableWord 8 0b01 = some .hostInitialize := by decide
theorem test_decode_read_request : decodeTableWord 8 0b10 = some (.readPartial 0 0#32 0#10 0#10) := by decide
/-- P2's read: `BLK = 10`, `OFS = 508`, `CNT = 4`, in the model's own layout (log 3). -/
theorem test_decode_read_operands :
    decodeTableWord 64 (2 + 10 * 2 ^ 2 + 508 * 2 ^ 34 + 4 * 2 ^ 44 + 3 * 2 ^ 54) =
      some (.readPartial 3 10#32 508#10 4#10) := by decide
/-- `COMPUTED` trailing bytes of the table in 95_test_vectors.md 2.1. -/
theorem test_decode_computed :
    (decodeFrame .computed 0x4100000000F9#48, decodeFrame .computed 0x500000020015#48,
      decodeFrame .computed 0x51FFFFFE009B#48, decodeFrame .computed 0x770000000065#48,
      decodeFrame .computed 0x7A00000000FD#48, decodeFrame .computed 0x694000000077#48,
      decodeFrame .computed 0x6900000000E5#48) =
    (.ok .cmd1, .ok .cmd16, .ok (.cmd17 0xFFFFFE00#32), .ok .cmd55, .ok .cmd58, .ok (.acmd41 true),
      .ok (.acmd41 false)) := by decide +kernel
theorem test_reject_unknown_index : decodeFrame .table 0x420000000001#48 = .error .unknownCommand := by decide
theorem test_reject_argument : decodeFrame .table 0x480000000087#48 = .error .badArgument := by decide
theorem test_reject_trailer : decodeFrame .table 0x400000000001#48 = .error .badTrailer := by decide
theorem test_reject_start_bit : decodeFrame .table 0xC00000000001#48 = .error .unknownCommand := by decide
theorem test_reject_reserved_requests :
    (decodeTableWord 8 0b00, decodeTableWord 8 0b11) = (none, none) := by decide
theorem test_frame_bytes :
    decodeFrameBytes .table [0x51#8, 0x00#8, 0x00#8, 0x14#8, 0x00#8, 0x01#8] = .ok (.cmd17 0x1400#32) := by decide
theorem test_frame_length : decodeFrameBytes .table [0x40#8, 0x00#8] = .error .badLength := by decide
theorem test_crc7 : (crc7 [0x40#8, 0#8, 0#8, 0#8, 0#8], crc7 [0x48#8, 0#8, 0#8, 1#8, 0xAA#8]) = (0x4A#7, 0x43#7) := by
  decide +kernel
/-- The ASCII string "123456789" (R93). -/
theorem test_crc16 :
    crc16 [0x31#8, 0x32#8, 0x33#8, 0x34#8, 0x35#8, 0x36#8, 0x37#8, 0x38#8, 0x39#8] = 0x31C3#16 := by decide +kernel

/-! ## Small states -/

/-- The state of an answer. -/
def stateOf (o : Out) : Option State :=
  match o with
  | .next s => some s
  | .fault _ => none
  | .refused _ => none

/-- A dispatch of `SEND_COMMAND(CODE, ARG)` at position `p`, alone, the card about to return `bytes`. -/
def inCall (code : Byte) (arg : Word32) (p : CallPos) (bytes : List Byte) : State :=
  { State.reset with calls := [⟨frameOf .table code arg, p⟩], incoming := bytes }

/-- The same with `N` attempts left at the response poll. -/
def inPoll (code : Byte) (arg : Word32) (n : Byte) (bytes : List Byte) : State :=
  { inCall code arg .poll bytes with work.n := some n }

/-- `INITIALIZE` at position `p` with the working registers `w`. -/
def inInit (p : InitPos) (w : Work) (bytes : List Byte) : State :=
  { State.reset with pos := .initOp p, work := w, incoming := bytes }

/-- `READ_PARTIAL 7, 10, 2, 3` at position `p` with the working registers `w`. -/
def inRead (p : ReadPos) (w : Work) (bytes : List Byte) : State :=
  { State.reset with pos := .readOp ⟨7, 10#32, 2#10, 3#10⟩ p, work := w, incoming := bytes }

/-- The inline configuration with the CRC-16 check (P6). -/
def inlineParams : Params := { Params.default with copyMode := .inlined, crc16Check := true }

/-- The state in which `INITIALIZE` is offered after reset. -/
def offeredInit : State := offer ⟨0b01#2, 0, 0#32, 0#10, 0#10⟩ State.reset

/-- The state in which `READ_PARTIAL dst, blk, ofs, cnt` is offered after reset. -/
def offeredRead (dst : Handle) (blk : Word32) (ofs cnt : BitVec 10) : State :=
  offer ⟨0b10#2, dst, blk, ofs, cnt⟩ State.reset

/-- `BUF` with its first three bytes written. -/
def threeBytes (b0 b1 b2 : Byte) : Vector (Option Byte) 4 := #v[some b0, some b1, some b2, none]

/-! ## Single steps of the card commands (95_test_vectors.md 2.1 to 2.4) -/

theorem test_cmd0_trailer :
    (stateOf (exec .cmd0 (inCall 0x40#8 0#32 (.frame 5) [0xFF#8]))).map (fun t => (t.trace, t.work.n)) =
      some ([.xchg 0x95#8 0xFF#8], some 10#8) := by decide
theorem test_cmd1_second_poll_read :
    (stateOf (exec .cmd1 (inPoll 0x41#8 0#32 9#8 [0x00#8]))).map (fun t => (t.work.res, t.work.n, t.calls)) =
      some (some 0x00#8, some 8#8, []) := by decide
theorem test_cmd8_argument_byte :
    (stateOf (exec .cmd8 (inCall 0x48#8 0x1AA#32 (.frame 4) [0xFF#8]))).map (·.trace) =
      some [.xchg 0xAA#8 0xFF#8] := by decide
theorem test_cmd16_argument_byte :
    (stateOf (exec .cmd16 (inCall 0x50#8 0x200#32 (.frame 3) [0xFF#8]))).map (·.trace) =
      some [.xchg 0x02#8 0xFF#8] := by decide
theorem test_cmd17_first_byte_is_most_significant :
    (stateOf (exec (.cmd17 0xFFFE0A00#32) (inCall 0x51#8 0xFFFE0A00#32 (.frame 2) [0x7F#8]))).map (·.trace) =
      some [.xchg 0xFE#8 0x7F#8] := by decide
/-- A tenth byte of 0x80 is returned as a timeout value (R124). -/
theorem test_cmd17_timeout_value :
    (stateOf (exec (.cmd17 5#32) (inPoll 0x51#8 5#32 1#8 [0x80#8]))).map (fun t => (t.work.res, t.work.n, t.calls)) =
      some (some 0x80#8, some 0#8, []) := by decide
theorem test_cmd55_selects :
    (stateOf (exec .cmd55 (inCall 0x77#8 0#32 (.bracket 2) []))).map (fun t => (t.sel, t.trace)) =
      some (true, [.sel true]) := by decide
theorem test_cmd58_polls_on :
    (stateOf (exec .cmd58 (inPoll 0x7A#8 0#32 10#8 [0x80#8]))).map (fun t => (t.work.res, t.work.n, t.calls.length)) =
      some (some 0x80#8, some 9#8, 1) := by decide
/-- The tag is not on the bus: 0x69 is sent (R81). -/
theorem test_acmd41_sends_0x69 :
    (stateOf (exec (.acmd41 true) (inCall 0xE9#8 0x40000000#32 (.frame 0) [0xFF#8]))).map (·.trace) =
      some [.xchg 0x69#8 0xFF#8] := by decide
theorem test_acmd41_begins_with_cmd55 :
    (stateOf (exec (.acmd41 false) (inCall 0xE9#8 0#32 .prefixDue []))).map (fun t => t.calls.map (·.frame)) =
      some [0x770000000001#48, 0x690000000001#48] := by decide
/-- `CMD55` answering 0x02 aborts (95_test_vectors.md 2.3): the step that receives it ends the dispatch. -/
theorem test_prefix_aborts :
    (stateOf (step { inPoll 0x77#8 0#32 9#8 [0x02#8] with
        calls := [⟨frameOf .table 0x77#8 0#32, .poll⟩, ⟨frameOf .table 0xE9#8 0#32, .prefixWait⟩] })).map
      (fun t => (t.work.res, t.calls)) = some (some 0x02#8, []) := by decide

/-! ## Single steps of the host operations -/

theorem test_initialize_first_event :
    (stateOf (step offeredInit)).map (fun t => (t.trace, t.pos, t.request)) =
      some ([.sel false], .initOp (.warm 1), none) := by decide
/-- Echo `FF FF 01 AA` is accepted (95_test_vectors.md 2.6). -/
theorem test_initialize_echo_accepted :
    (stateOf (step (inInit (.echo 3) { Work.unwritten with buf := threeBytes 0xFF#8 0xFF#8 0x01#8 } [0xAA#8]))).map
      (fun t => (t.pos, t.work.tmr, t.failure)) = some (.initOp .hcs, some 25000#16, none) := by decide
theorem test_initialize_ocr_block_addressed :
    (stateOf (step (inInit (.ocrRead 3) { Work.unwritten with buf := threeBytes 0xC0#8 0xFF#8 0x80#8 } [0x00#8]))).map
      (·.work.ty) = some (some 0x0C#8) := by decide
theorem test_initialize_result :
    (stateOf (step (inInit .release { Work.unwritten with ty := some 0x04#8 } [0xFF#8]))).map
      (fun t => (t.results, t.pos, t.trace)) =
      some ([.initialized .ready], .idle, [.xchg 0xFF#8 0xFF#8]) := by decide

/-- P1: block 10 of an SDHC card (95_test_vectors.md 1.3). -/
theorem test_read_block_addressed :
    (stateOf (step { offeredRead 7 10#32 0#10 4#10 with cardType := 0x0C#8 })).map
      (fun t => (t.work.addr, t.calls.map (·.frame))) =
      some (some 0x0000000A#32, [0x510000000A01#48]) := by decide
/-- P2: block 10 of a byte-addressed card. -/
theorem test_read_byte_addressed :
    (stateOf (step { offeredRead 7 10#32 508#10 4#10 with cardType := 0x02#8 })).map
      (fun t => (t.work.addr, t.calls.map (·.frame))) =
      some (some 0x00001400#32, [0x510000140001#48]) := by decide
/-- P5: `OFS + CNT = 513` is refused. -/
theorem test_read_refused :
    (stateOf (step (offeredRead 7 1#32 511#10 2#10))).map (fun t => (t.refused, t.trace, t.pos)) =
      some (true, [], .idle) := by decide
/-- A malformed token (95_test_vectors.md 2.10). -/
theorem test_read_malformed_token :
    (stateOf (step (inRead .token { Work.unwritten with bc := some 30000#16 } [0xFC#8]))).map
      (fun t => (t.failure, t.work.bc)) = some (some (.tokenBad 0xFC#8), some 29999#16) := by decide
/-- P6: `Wr(buf, 0, 02)` at byte 2 of the packet, `OFS = 2`. -/
theorem test_read_inline_write :
    (stateOf (step { inRead (.write 2) { Work.unwritten with d := [some 0#8, some 1#8, some 2#8] } [] with
        params := inlineParams })).map (fun t => (t.trace, t.dest)) =
      some ([.wr 7 0 0x02#8], [(7 * 512, 0x02#8)]) := by decide

/-! ## The rest of a step: rest, refusal, faults -/

theorem test_idle_rests : (stateOf (step State.reset)).map (·.trace) = some [] := by decide
theorem test_busy_refuses :
    (stateOf (step (offer ⟨0b01#2, 0, 0#32, 0#10, 0#10⟩ (inRead .token Work.unwritten [])))).map
      (fun t => (t.refused, t.pos == .readOp ⟨7, 10#32, 2#10, 3#10⟩ .token, t.trace)) =
      some (true, true, []) := by decide
/-- A register that no step has written faults when read (R27). -/
theorem test_unwritten_register_faults :
    step (inRead .token Work.unwritten [0xFF#8]) = .fault (.unwrittenRegister .bc) := rfl
theorem test_illegal_configuration :
    step { offeredInit with params := { Params.default with crc16Check := true } } = .refused .illegalConfig := rfl
theorem test_unknown_frame : step (State.reset.withFetchWord 48 0x420000000001) = .refused .unknownCommand := rfl

/-! ## A placed word runs as the next step -/

theorem test_placed_frame_runs :
    (stateOf (step (State.reset.withFetchWord 48 0x400000000095))).map (fun t => (t.trace, t.calls)) =
      some ([.sel false], [⟨0x400000000095#48, .bracket 1⟩]) := by decide
theorem test_placed_request_runs :
    (stateOf (step (State.reset.withFetchWord 8 0b01))).map (fun t => (t.trace, t.pos)) =
      some ([.sel false], .initOp (.warm 1)) := by decide

/-! ## Witnesses: for each statement with hypotheses, states and operands that meet all of them, clause by clause, at
boundary values -/

/-- A dispatch with the argument range's last value, and its frame. -/
def topFrame : Frame := frameOf .table 0x51#8 0xFFFFFFFF#32

/-- `READ_PARTIAL dst, blk, ofs, cnt` running at position `p`. -/
def inWindowRead (p : Params) (ofs cnt : BitVec 10) (at_ : ReadPos) (w : Work) (bytes : List Byte) : State :=
  { State.reset with params := p, pos := .readOp ⟨7, 10#32, ofs, cnt⟩ at_, work := w, incoming := bytes }

/-- Working registers with `RESULT` alone. -/
def withResult (r : ReadResult) : Work := { Work.unwritten with result := some r }

/-- Ten bytes with bit 7 set: a timeout of the response poll. -/
def tenBusy : List Byte := List.replicate 10 0xFF#8

/-- `StepRunsTheDecodedInstruction`, its seven clauses. -/
theorem witness_step_clauses :
    decodeRequest ⟨0b01#2, 0, 0#32, 0#10, 0#10⟩ = .ok .hostInitialize ∧
    (∃ e, decodeRequest ⟨0b11#2, 0, 0#32, 0#10, 0#10⟩ = .error e) ∧
    ((inCall 0x40#8 0#32 .poll []).request = none ∧
      decodeFrame .table (frameOf .table 0x40#8 0#32) = .ok .cmd0) ∧
    (∃ e, decodeFrame .table 0x420000000001#48 = .error e) ∧
    ((inInit .clean Work.unwritten []).request = none ∧ (inInit .clean Work.unwritten []).calls = []) ∧
    ((inRead .clean Work.unwritten []).request = none ∧ (inRead .clean Work.unwritten []).calls = []) ∧
    (State.reset.request = none ∧ State.reset.calls = [] ∧ State.reset.pos = .idle) :=
  ⟨by decide, ⟨_, rfl⟩, by decide, ⟨_, rfl⟩, by decide, by decide, by decide⟩

/-- `DrawTakesTheNextIncomingByte`: with a byte listed, and with none. -/
theorem witness_draw :
    (inInit .clean Work.unwritten [0x5A#8]).incoming = [0x5A#8] ∧ State.reset.incoming = [] := by decide

/-- `EncodeOfDecodeIsTheFrame`, in both modes. -/
theorem witness_frame_decodes :
    decodeFrame .table 0x51FFFFFFFF01#48 = .ok (.cmd17 0xFFFFFFFF#32) ∧
    decodeFrame .computed 0x51FFFFFE009B#48 = .ok (.cmd17 0xFFFFFE00#32) := by decide +kernel

/-- `CommandBracketsItsFrame` and `CommandSendsItsSixBytes`: every position of steps B and C, at the top of the
argument's range. -/
theorem witness_call_positions :
    commandOf (.cmd17 0xFFFFFFFF#32) = some (0x51#8, 0xFFFFFFFF#32) ∧
    topFrame = frameOf State.reset.params.crc7Mode 0x51#8 0xFFFFFFFF#32 ∧
    (∀ k : Fin 4, (inCall 0x51#8 0xFFFFFFFF#32 (.bracket k) []).calls = [⟨topFrame, .bracket k⟩]) ∧
    (∀ k : Fin 6, (inCall 0x51#8 0xFFFFFFFF#32 (.frame k) []).calls = [⟨topFrame, .frame k⟩]) ∧
    ((0 : Fin 6).val + 1 = (1 : Fin 6).val ∧ (4 : Fin 6).val + 1 = (5 : Fin 6).val) := by decide

/-- `CommandPollsForItsResponse`: a valid byte at the first attempt, none at the last, and polling on at the first. -/
theorem witness_poll_clauses :
    commandOf .cmd55 = some (0x77#8, 0#32) ∧
    ((inPoll 0x77#8 0#32 10#8 [0x7F#8]).work.n = some 10#8 ∧
      (draw (inPoll 0x77#8 0#32 10#8 [0x7F#8])).1.getLsbD 7 = false) ∧
    ((inPoll 0x77#8 0#32 1#8 [0xFF#8]).work.n = some 1#8 ∧
      (draw (inPoll 0x77#8 0#32 1#8 [0xFF#8])).1.getLsbD 7 = true) ∧
    ((inPoll 0x77#8 0#32 2#8 [0x80#8]).work.n = some 2#8 ∧
      (draw (inPoll 0x77#8 0#32 2#8 [0x80#8])).1.getLsbD 7 = true ∧ (2#8 : Byte) ≠ 1#8) ∧
    (inPoll 0x77#8 0#32 2#8 [0x80#8]).calls =
      [⟨frameOf State.reset.params.crc7Mode 0x77#8 0#32, .poll⟩] := by decide

/-- `CommandBeginsWithDeselect`, for a plain and an application command. -/
theorem witness_command_begins :
    commandOf .cmd0 = some (0x40#8, 0#32) ∧ commandOf (.acmd41 true) = some (0xE9#8, 0x40000000#32) ∧
    State.reset.pos = .idle ∧ State.reset.calls = [] := by decide

/-- `ApplicationCommandBeginsItsPrefix`. -/
theorem witness_prefix_due :
    (inCall 0xE9#8 (acmd41Arg true) .prefixDue []).calls =
      [⟨frameOf State.reset.params.crc7Mode 0xE9#8 (acmd41Arg true), .prefixDue⟩] := rfl

/-- `PrefixResponseDecides`, at 0x02 and at 0x01. -/
theorem witness_prefix_returns :
    ∀ v ∈ [0x01#8, 0x02#8],
      let s : State := { inCall 0xE9#8 0#32 .prefixWait [] with work.res := some v }
      s.calls = [⟨frameOf .table 0xE9#8 0#32, .prefixWait⟩] ∧ s.work.res = some v ∧
      (1 < v.toNat ∨ v.toNat ≤ 1) := by
  simp only [List.forall_mem_cons, List.not_mem_nil, false_implies, implies_true, and_true]
  decide

/-- `PlainCommandRunsToItsResponse`, with polls of one and of ten bytes: by itself, inside `INITIALIZE`, and as the prefix
of an application command (`u` is the state its equation gives). -/
theorem witness_plain_run :
    ∀ polls ∈ [[0x00#8], tenBusy],
    ∀ at_ ∈ [(Position.idle, []), (.initOp .cmd0, []),
        (.initOp .probe, [(⟨frameOf .table 0xE9#8 0#32, .prefixWait⟩ : Call)])],
      let s : State := { State.reset with
        pos := at_.1
        calls := callOf State.reset.params.crc7Mode 0x40#8 0#32 :: at_.2
        incoming := [1#8, 2#8] ++ List.replicate 6 0#8 ++ polls ++ [9#8] }
      commandOf .cmd0 = some (0x40#8, 0#32) ∧ isApp 0x40#8 = false ∧ s.request = none ∧
      s.calls = callOf s.params.crc7Mode 0x40#8 0#32 :: at_.2 ∧ (List.replicate 6 0#8).length = 6 ∧
      pollBytes polls = true ∧ s.incoming = [1#8, 2#8] ++ List.replicate 6 0#8 ++ polls ++ [9#8] := by
  decide +kernel

/-- `RejectedPrefixSendsOneFrame`: responses 0x02 and, after ten reads, 0xFF, by itself and inside `INITIALIZE`. -/
theorem witness_rejected_prefix :
    ∀ polls ∈ [[0x02#8], tenBusy], ∀ p ∈ [Position.idle, .initOp .hcs],
      let s : State := { State.reset with
        pos := p
        calls := [callOf State.reset.params.crc7Mode 0xE9#8 (acmd41Arg true)]
        incoming := [1#8, 2#8] ++ List.replicate 6 0#8 ++ polls ++ [] }
      s.request = none ∧ s.calls = [callOf s.params.crc7Mode 0xE9#8 (acmd41Arg true)] ∧
      pollBytes polls = true ∧ polls.getLast?.any (fun v => decide (1 < v.toNat)) = true ∧
      s.incoming = [1#8, 2#8] ++ List.replicate 6 0#8 ++ polls ++ [] := by decide +kernel

/-- `AcceptedPrefixSendsBothFrames`: `CMD55` returns 0x01 and the intended frame times out, by itself and inside
`INITIALIZE`. -/
theorem witness_accepted_prefix :
    ∀ p ∈ [Position.idle, .initOp .probe],
      let s : State := { State.reset with
        pos := p
        calls := [callOf State.reset.params.crc7Mode 0xE9#8 (acmd41Arg false)]
        incoming := [1#8, 2#8] ++ List.replicate 6 0#8 ++ [0x01#8] ++
          ([3#8, 4#8] ++ List.replicate 6 0#8 ++ tenBusy ++ [5#8]) }
      s.request = none ∧ s.calls = [callOf s.params.crc7Mode 0xE9#8 (acmd41Arg false)] ∧
      pollBytes [0x01#8] = true ∧ [0x01#8].getLast? = some 0x01#8 ∧ (0x01#8 : Byte).toNat ≤ 1 ∧
      pollBytes tenBusy = true ∧
      s.incoming = [1#8, 2#8] ++ List.replicate 6 0#8 ++ [0x01#8] ++
        ([3#8, 4#8] ++ List.replicate 6 0#8 ++ tenBusy ++ [5#8]) := by decide +kernel

/-- `CardCommandFrame`. -/
theorem witness_command_frame :
    (commandOf .cmd58).isSome = true ∧ ∃ t, exec .cmd58 (inPoll 0x7A#8 0#32 1#8 [0xFF#8]) = .next t :=
  ⟨rfl, _, rfl⟩

/-- `InitializeIsAccepted`. -/
theorem witness_initialize_accepted :
    offeredInit.pos = .idle ∧ offeredInit.calls = [] ∧ paramsLegal offeredInit.params = true := by decide

/-- `WarmUpMakesItsExchanges`, at the minima of both counts. -/
theorem witness_warm_up :
    let l1 : List Byte := List.replicate 10 0xFF#8
    let l2 : List Byte := List.replicate 600 0xFF#8
    let s : State := { offeredInit with incoming := l1 ++ l2 ++ [0x01#8] }
    s.pos = .idle ∧ s.calls = [] ∧ s.request = some ⟨0b01#2, 0, 0#32, 0#10, 0#10⟩ ∧
    paramsLegal s.params = true ∧ l1.length = s.params.nWarmupDesel ∧ l2.length = s.params.nWarmupSel ∧
    s.incoming = l1 ++ l2 ++ [0x01#8] := by decide +kernel

/-- `ResetResponseDecides`, `VersionProbeDecides`, `ProbeClassifies` and `BlockLengthResponseDecides`: each return
point with the responses on both sides of its decision. -/
theorem witness_responses :
    ∀ p ∈ [InitPos.cmd0, .cmd8, .probe, .blen], ∀ v ∈ [0x00#8, 0x01#8, 0x02#8, 0xFF#8],
      let s := inInit p { Work.unwritten with res := some v } []
      s.pos = .initOp p ∧ s.calls = [] ∧ s.work.res = some v := by
  simp only [List.forall_mem_cons, List.not_mem_nil, false_implies, implies_true, and_true]
  decide

/-- The invariant's side of `ResetResponseDecides`, `VersionProbeDecides` and `ReadCommandResponseDecides`. -/
theorem witness_commands_sent :
    (let s : State := { inCall 0x40#8 0#32 (.bracket 1) [] with
        pos := .initOp .cmd0, work := { Work.unwritten with ty := some 0x00#8 } }
     s.inv = true ∧ s.pos = .initOp .cmd0) ∧
    (let s : State := { inCall 0x48#8 0x1AA#32 (.bracket 0) [] with
        pos := .initOp .cmd8, work := { Work.unwritten with ty := some 0x00#8 } }
     s.inv = true ∧ s.pos = .initOp .cmd8) ∧
    (let s : State := { inCall 0x51#8 0xFFFFFFFF#32 (.bracket 1) [] with
        pos := .readOp ⟨7, 10#32, 2#10, 3#10⟩ .cmd17
        work := { withResult .error with addr := some 0xFFFFFFFF#32 } }
     s.inv = true ∧ s.pos = .readOp ⟨7, 10#32, 2#10, 3#10⟩ .cmd17) := by decide

/-- `EchoIsReadAndChecked`: the first and third byte, and the check on both sides. -/
theorem witness_echo :
    paramsLegal Params.default = true ∧
    (∀ k : Fin 4, let s := inInit (.echo k) Work.unwritten [0#8]
      s.request = none ∧ s.calls = [] ∧ s.pos = .initOp (.echo k)) ∧
    ((0 : Fin 4).val + 1 = (1 : Fin 4).val ∧ (2 : Fin 4).val + 1 = (3 : Fin 4).val) ∧
    (∀ b ∈ [0xAA#8, 0xAB#8],
      let s := inInit (.echo 3) { Work.unwritten with buf := threeBytes 0#8 0#8 0x01#8 } [b]
      s.work.buf[0] = some 0#8 ∧ s.work.buf[1] = some 0#8 ∧ s.work.buf[2] = some 0x01#8 ∧ (draw s).1 = b) := by
  decide

/-- `HcsPollDecides` and `IdleExitPollDecides`: success at the last attempt, another attempt at the first, and the
timeout. -/
theorem witness_idle_exit :
    ∀ p ∈ [InitPos.hcs, .idlex],
    ∀ c ∈ [(0x00#8, 1#16), (0x01#8, 25000#16), (0x01#8, 2#16), (0xFF#8, 1#16)],
      let s := inInit p { Work.unwritten with res := some c.1, tmr := some c.2, pcmd := some 0xE9#8 } []
      s.pos = .initOp p ∧ s.calls = [] ∧ s.work.res = some c.1 ∧ s.work.tmr = some c.2 ∧ c.2 ≠ 0#16 ∧
      s.work.pcmd = some 0xE9#8 := by
  simp only [List.forall_mem_cons, List.not_mem_nil, false_implies, implies_true, and_true]
  decide

/-- `OcrIsReadAndClassified`: both responses, the first byte, and the fourth with bit 6 clear and set. -/
theorem witness_ocr :
    paramsLegal Params.default = true ∧
    (∀ v ∈ [0x00#8, 0x01#8], let s := inInit .ocr { Work.unwritten with res := some v } []
      s.request = none ∧ s.calls = [] ∧ s.pos = .initOp .ocr ∧ s.work.res = some v) ∧
    (∀ k : Fin 4, (inInit (.ocrRead k) Work.unwritten [0#8]).pos = .initOp (.ocrRead k)) ∧
    (∀ b ∈ [0xBF#8, 0x40#8],
      (inInit (.ocrRead 3) { Work.unwritten with buf := threeBytes b 0#8 0#8 } [0#8]).work.buf[0] = some b) := by
  decide

/-- `InitializeStoresAndReleases`, with and without a classification. -/
theorem witness_store_release :
    ∀ p ∈ [InitPos.clean, .release], ∀ ty ∈ [0x00#8, 0x0C#8],
      let s := inInit p { Work.unwritten with ty := some ty } [0xFF#8]
      paramsLegal s.params = true ∧ s.request = none ∧ s.calls = [] ∧ s.work.ty = some ty ∧
      s.pos = .initOp p := by
  simp only [List.forall_mem_cons, List.not_mem_nil, false_implies, implies_true, and_true]
  decide

/-- `StatusFollowsCardTypeAndIsTheResult`, with and without a classification. -/
theorem witness_status :
    (let s : State := { inInit .release { Work.unwritten with ty := some 0x0C#8 } [] with cardType := 0x0C#8 }
     s.inv = true ∧ paramsLegal s.params = true ∧ s.request = none ∧ s.pos = .initOp .release) ∧
    (let s : State := { inInit .release { Work.unwritten with ty := some 0x00#8 } [] with failure := some (.reset 0xFF#8) }
     s.inv = true ∧ paramsLegal s.params = true ∧ s.request = none ∧ s.pos = .initOp .release) := by decide

/-- `IdleExitPollLaw`: no failed attempt, 24999 of them, and 25000. -/
theorem witness_idle_exit_law :
    ∀ n ∈ [0, 24999, 25000], (∀ r ∈ List.replicate n 0x01#8, r ≠ 0x00#8) ∧ (List.replicate n 0x01#8).length = n := by
  intro n _
  refine ⟨fun r hr => ?_, List.length_replicate ..⟩
  rw [List.eq_of_mem_replicate hr]
  decide

/-- `InitializeFrame`: at the cleanup. -/
theorem witness_initialize_frame :
    ∃ t, exec .hostInitialize (inInit .clean { Work.unwritten with ty := some 0x04#8 } []) = .next t := ⟨_, rfl⟩

/-- `ReadIsAcceptedWithTranslatedAddress`: the whole sector and its last byte, both addressings. -/
theorem witness_read_accepted :
    State.reset.pos = .idle ∧ State.reset.calls = [] ∧ paramsLegal State.reset.params = true ∧
    ∀ c ∈ [((0#10 : BitVec 10), (512#10 : BitVec 10)), (511#10, 1#10)],
      c.1.toNat ≤ 511 ∧ 1 ≤ c.2.toNat ∧ c.2.toNat ≤ 512 ∧ c.1.toNat + c.2.toNat ≤ 512 := by
  simp only [List.forall_mem_cons, List.not_mem_nil, false_implies, implies_true, and_true]
  decide

/-- `ByteAddressIsSectorAlignedAndWraps`. -/
theorem witness_byte_addressed : (0x04#8 : Byte).getLsbD 3 = false ∧ (0x00#8 : Byte).getLsbD 3 = false := by decide

/-- `BadWindowIsRefused`: each of the four bounds alone. -/
theorem witness_bad_windows :
    511 < (512#10 : BitVec 10).toNat ∧ (0#10 : BitVec 10).toNat < 1 ∧ 512 < (513#10 : BitVec 10).toNat ∧
    512 < (511#10 : BitVec 10).toNat + (2#10 : BitVec 10).toNat ∧
    State.reset.pos = .idle ∧ State.reset.calls = [] ∧ paramsLegal State.reset.params = true := by decide

/-- `ReadCommandResponseDecides`, on both sides. -/
theorem witness_read_response :
    ∀ v ∈ [0x00#8, 0x01#8],
      let s := inRead .cmd17 { Work.unwritten with res := some v, addr := some 5#32 } []
      s.pos = .readOp ⟨7, 10#32, 2#10, 3#10⟩ .cmd17 ∧ s.calls = [] ∧ s.work.res = some v ∧
      s.work.addr = some 5#32 := by
  simp only [List.forall_mem_cons, List.not_mem_nil, false_implies, implies_true, and_true]
  decide

/-- `TokenReadDecides`: the start token at the last read, a wait byte with one and with two reads left, a bad byte. -/
theorem witness_token :
    ∀ c ∈ [(0xFE#8, 1#16), (0xFF#8, 2#16), (0xFF#8, 1#16), (0x00#8, 30000#16)],
      let s := inRead .token { Work.unwritten with bc := some c.2 } [c.1]
      paramsLegal s.params = true ∧ s.request = none ∧ s.calls = [] ∧
      s.pos = .readOp ⟨7, 10#32, 2#10, 3#10⟩ .token ∧ s.work.bc = some c.2 ∧ (draw s).1 = c.1 := by
  simp only [List.forall_mem_cons, List.not_mem_nil, false_implies, implies_true, and_true]
  decide

/-- `DelegatedCopyDeliversTheWindow`, for the whole sector. -/
theorem witness_delegated_copy :
    let packet : List Byte := List.replicate 514 0x5A#8
    let s := inWindowRead Params.default 0#10 512#10 .copy (withResult .error) (packet ++ [])
    paramsLegal s.params = true ∧ s.request = none ∧ s.calls = [] ∧
    s.pos = .readOp ⟨7, 10#32, 0#10, 512#10⟩ .copy ∧ windowOk 0#10 512#10 = true ∧ packet.length = 514 ∧
    s.incoming = packet ++ [] := by decide +kernel

/-- `InlineCopyReadsThePacket`: the window's last byte, the byte before and after it, and the last byte of the packet
without a CRC check. -/
theorem witness_inline_packet :
    let p : Params := { Params.default with copyMode := .inlined }
    (∀ j ∈ [(1 : Fin 514), 4, 5, 513],
      let s := inWindowRead p 2#10 3#10 (.packet j) (withResult .error) [0#8]
      paramsLegal s.params = true ∧ s.request = none ∧ s.calls = [] ∧
      s.pos = .readOp ⟨7, 10#32, 2#10, 3#10⟩ (.packet j)) ∧
    (2 ≤ (4 : Fin 514).val ∧ (4 : Fin 514).val < 2 + 3) ∧ ¬ (2 ≤ (1 : Fin 514).val) ∧
    ¬ ((5 : Fin 514).val < 2 + 3) ∧ (512 : Fin 514).val + 1 = (513 : Fin 514).val ∧ p.crc16Check = false := by
  decide +kernel

/-- `InlineCopyWritesTheWindow`: the last position a window can have. -/
theorem witness_inline_write :
    let s := inWindowRead inlineParams 511#10 1#10 (.write 511)
      { Work.unwritten with d := List.replicate 511 (some 0#8) ++ [some 0x5A#8] } []
    paramsLegal s.params = true ∧ s.request = none ∧ s.calls = [] ∧
    s.pos = .readOp ⟨7, 10#32, 511#10, 1#10⟩ (.write 511) ∧ (512 : Fin 514).val = (511 : Fin 514).val + 1 ∧
    entry s.work.d (511 : Fin 514).val = some 0x5A#8 := by decide +kernel

/-- The CRC-16 of zeros is 0 (R93). -/
theorem crc16_zeros (n : Nat) : crc16 (List.replicate n 0x00#8) = 0x0000#16 := by
  induction n with
  | zero => rfl
  | succ n ih =>
    have h : crc16Byte 0x0000#16 0x00#8 = 0x0000#16 := by decide
    rw [List.replicate_succ]
    simpa only [crc16, List.foldl_cons, h] using ih

/-- `CrcCheckDecides`, for a sector of zeros: a match and a mismatch. -/
theorem witness_crc_check :
    let data : List Byte := List.replicate 512 0x00#8
    (∀ b : Byte,
      let s := inWindowRead inlineParams 0#10 512#10 (.packet 513)
        { Work.unwritten with d := data.map some ++ [some 0x00#8] } [b]
      paramsLegal s.params = true ∧ s.request = none ∧ s.calls = [] ∧ s.params.crc16Check = true ∧
      s.pos = .readOp ⟨7, 10#32, 0#10, 512#10⟩ (.packet 513) ∧ (draw s).1 = b) ∧
    windowOk 0#10 512#10 = true ∧ data.length = 512 ∧ crc16 data = 0x00#8 ++ 0x00#8 ∧
    crc16 data ≠ 0x00#8 ++ 0x01#8 := by
  refine ⟨fun b => ⟨rfl, rfl, rfl, rfl, rfl, rfl⟩, by decide, List.length_replicate .., ?_, ?_⟩ <;>
    rw [crc16_zeros] <;> decide

/-- `ReadReleasesAndReturns`: both positions, both results. -/
theorem witness_read_release :
    ∀ p ∈ [ReadPos.clean, .release], ∀ r ∈ [ReadResult.ok, .error],
      let s := inRead p (withResult r) [0xFF#8]
      paramsLegal s.params = true ∧ s.request = none ∧ s.calls = [] ∧
      s.pos = .readOp ⟨7, 10#32, 2#10, 3#10⟩ p ∧ s.work.result = some r := by
  simp only [List.forall_mem_cons, List.not_mem_nil, false_implies, implies_true, and_true]
  decide

/-- `ReadPartialFrame`: at a token read, at a `Wr` position, at the delegated copy, and at the release after both
results. -/
theorem witness_read_frame :
    (let s := inRead .token { withResult .error with bc := some 1#16 } [0xFE#8]
     s.inv = true ∧ (stateOf (exec (.readPartial 7 10#32 2#10 3#10) s)).isSome = true) ∧
    (let s := inWindowRead inlineParams 0#10 1#10 (.write 0) { withResult .error with d := [some 1#8] } []
     s.inv = true ∧ (stateOf (exec (.readPartial 7 10#32 0#10 1#10) s)).isSome = true) ∧
    (inRead .copy (withResult .error) []).inv = true ∧
    (∃ t, exec (.readPartial 7 10#32 2#10 3#10) (inRead .copy (withResult .error) []) = .next t) ∧
    (let s := inRead .release (withResult .ok) [0xFF#8]
     s.inv = true ∧ (stateOf (exec (.readPartial 7 10#32 2#10 3#10) s)).isSome = true) ∧
    (let s : State := { inRead .release (withResult .error) [0xFF#8] with failure := some .tokenTimeout }
     s.inv = true ∧ ∃ t, exec (.readPartial 7 10#32 2#10 3#10) s = .next t) :=
  ⟨by decide, by decide, by decide, ⟨_, rfl⟩, by decide, ⟨by decide, _, rfl⟩⟩

/-- `IllegalConfigurationIsRefused`. -/
theorem witness_illegal :
    ({ Params.default with crc16Check := true } : Params).copyMode = .delegated := rfl

/-- `RequestWhileBusyIsRefused`: busy with a read, and with a command. -/
theorem witness_busy :
    ∀ s ∈ [inRead .token { withResult .error with bc := some 1#16 } [], inPoll 0x40#8 0#32 10#8 []],
      (offer ⟨0b01#2, 0, 0#32, 0#10, 0#10⟩ s).inv = true ∧ paramsLegal s.params = true ∧ busy s = true := by decide

/-- `ReservedOperationIsRefused`. -/
theorem witness_reserved :
    (offer ⟨0b11#2, 0, 0#32, 0#10, 0#10⟩ State.reset).request = some ⟨0b11#2, 0, 0#32, 0#10, 0#10⟩ ∧
    (offer ⟨0b00#2, 0, 0#32, 0#10, 0#10⟩ State.reset).request = some ⟨0b00#2, 0, 0#32, 0#10, 0#10⟩ := by decide

/-- `RefusedMarkIsNeverCleared`. -/
theorem witness_refused_mark :
    ∃ t, step { offeredInit with refused := true } = .next t ∧ t.trace = [.sel false] := ⟨_, rfl, rfl⟩

/-- `StepAppendsAtMostOneEvent` and `SelectLineFollowsTheTrace`: a `Sel` event, and none. -/
theorem witness_events :
    (∃ t, step offeredInit = .next t ∧ t.trace = .sel false :: offeredInit.trace) ∧
    (∃ t, step State.reset = .next t ∧ t.trace = State.reset.trace) := ⟨⟨_, rfl, rfl⟩, ⟨_, rfl, rfl⟩⟩

/-- `CardTypeIsWrittenOnlyAtCleanup`. -/
theorem witness_card_type_written :
    ∃ t, step (inInit .clean { Work.unwritten with ty := some 0x04#8 } []) = .next t ∧ t.cardType ≠ 0x00#8 :=
  ⟨_, rfl, by decide⟩

/-- `DestinationIsWrittenOnlyByReads`: a `Wr` event, a `Copy` event, and the end of a failed read, which lists an address
that was not listed. -/
theorem witness_destination_written :
    (let s := inWindowRead inlineParams 0#10 1#10 (.write 0) { withResult .error with d := [some 1#8] } []
     ∃ t, step s = .next t ∧ t.dest.read 3584 ≠ s.dest.read 3584) ∧
    (let s := inWindowRead Params.default 0#10 1#10 .copy (withResult .error) (List.replicate 514 0x5A#8)
     (stateOf (step s)).map (·.dest.read 3584) = some (some 0x5A#8) ∧ s.dest.read 3584 = none) ∧
    (let s := inWindowRead Params.default 0#10 1#10 .release (withResult .error) [0xFF#8]
     ∃ t, step s = .next t ∧ t.dest.read 3584 ≠ s.dest.read 3584) := by
  refine ⟨⟨_, rfl, by decide⟩, by decide +kernel, ⟨_, rfl, ?_⟩⟩
  show some _ ≠ none
  exact fun h => nomatch h

/-- `FailureEntryGoesToCleanup`: in both operations. -/
theorem witness_failure_entry :
    (∃ t, step (inRead .token { withResult .error with bc := some 1#16 } [0x00#8]) = .next t ∧
      t.failure = some (.tokenBad 0x00#8)) ∧
    (∃ t, step { inPoll 0x40#8 0#32 1#8 [0xFF#8] with pos := .initOp .cmd0 } = .next t ∧
      t.failure = some (.reset 0xFF#8)) := ⟨⟨_, rfl, rfl⟩, ⟨_, rfl, rfl⟩⟩

/-- `FirstFailureIsTheOnlyOne`: while the operation cleans up, and at the next acceptance. -/
theorem witness_first_failure :
    (let s : State := { inRead .clean (withResult .error) [] with failure := some .tokenTimeout }
     s.inv = true ∧ (stateOf (step s)).map (·.failure) = some (some .tokenTimeout)) ∧
    (let s : State := { offeredInit with failure := some .tokenTimeout }
     s.inv = true ∧ (stateOf (step s)).map (·.failure) = some none) := by decide

/-- `BlockLengthIsSetOnlyAfterTheProbe`, its clause under the invariant. -/
theorem witness_block_length_frame :
    let s : State := { inCall 0x50#8 0x200#32 (.bracket 0) [] with
      pos := .initOp .blen, work := { Work.unwritten with ty := some 0x02#8 } }
    s.inv = true ∧ s.pos ≠ .idle ∧
    s.calls = [⟨frameOf s.params.crc7Mode 0x50#8 0x00000200#32, .bracket 0⟩] := by decide

/-- `BlockLengthIsSetOnlyAfterTheProbe`: the three positions are reached. -/
theorem witness_block_length :
    ((stateOf (step { inPoll 0x69#8 0#32 1#8 [0x00#8] with
        pos := .initOp .idlex
        work := { Work.unwritten with n := some 1#8, tmr := some 1#16, pcmd := some 0xE9#8 } })).map (·.pos) =
      some (.initOp .blen)) ∧
    ((stateOf (step { inPoll 0x69#8 0#32 1#8 [0x01#8] with pos := .initOp .probe })).map (·.pos) =
      some (.initOp .idlex)) ∧
    ((stateOf (step { inPoll 0x48#8 0x1AA#32 1#8 [0x05#8] with pos := .initOp .cmd8 })).map (·.pos) =
      some (.initOp .probe)) := by decide

/-- `StepKeepsTheInvariant` and `InvariantStatesNeverStop`: at an acceptance and inside a nested dispatch. -/
theorem witness_invariant :
    ∀ s ∈ [offeredInit,
        { inPoll 0x77#8 0#32 1#8 [0x01#8] with
          pos := .initOp .probe
          calls := [⟨frameOf .table 0x77#8 0#32, .poll⟩, ⟨frameOf .table 0xE9#8 0#32, .prefixWait⟩]
          work := { Work.unwritten with n := some 1#8, ty := some 0x00#8 } }],
      s.inv = true ∧ paramsLegal s.params = true ∧ (stateOf (step s)).isSome = true := by decide

/-- `InitializeAlwaysCompletes`. -/
theorem witness_initialize_completes :
    offeredInit.inv = true ∧ offeredInit.pos = .idle ∧ offeredInit.calls = [] ∧
    offeredInit.request = some ⟨0b01#2, 0, 0#32, 0#10, 0#10⟩ ∧ paramsLegal offeredInit.params = true ∧
    offeredInit.params.nWarmupDesel = 10 ∧ offeredInit.params.nWarmupSel = 600 := by decide

/-- `ReadPartialAlwaysCompletes`, in both copy modes, for the widest window and the last one. -/
theorem witness_read_completes :
    ∀ p ∈ [Params.default, inlineParams], ∀ c ∈ [((0#10 : BitVec 10), (512#10 : BitVec 10)), (511#10, 1#10)],
      let s : State := { offeredRead 7 10#32 c.1 c.2 with params := p }
      s.inv = true ∧ s.pos = .idle ∧ s.calls = [] ∧ s.request = some ⟨0b10#2, 7, 10#32, c.1, c.2⟩ ∧
      paramsLegal s.params = true ∧ windowOk c.1 c.2 = true := by
  simp only [List.forall_mem_cons, List.not_mem_nil, false_implies, implies_true, and_true]
  decide

end Sys2Proof.Tests
end

section
/-! PROOF. What a received byte is (R10). -/

namespace Sys2Proof.Machine

/-- With none listed a draw takes the next free value; the companion of `draw_of_cons`. -/
theorem draw_of_nil (s : State) (h : s.incoming = []) :
    draw s = (Config.freeByte s.free, { s with free := s.free + 1 }) := by
  simp [draw, h]

/-- Settles O3: one equation of `draw` for each shape of `incoming`. -/
theorem drawTakesTheNextIncomingByte : Obligations.DrawTakesTheNextIncomingByte :=
  fun s => ⟨draw_of_cons s, draw_of_nil s⟩

end Sys2Proof.Machine
end

section
/-! PROOF. What one event leaves unchanged: the dispatcher, the two operations, and the resolution of returns. -/

namespace Sys2Proof.Machine

/-! ## Frames -/

/-- The level of the select line after an event (R25). -/
def Event.selAfter (e : Event) (level : Bool) : Bool :=
  match e with
  | .sel b => b
  | .xchg _ _ | .copy _ _ _ | .wr _ _ _ => level

/-- From `s` to `t` at most one event is made, and the select line follows it (R25, R28). -/
def BusEvent (s t : State) : Prop :=
  (t.trace = s.trace ∧ t.sel = s.sel) ∨ ∃ e, t.trace = e :: s.trace ∧ t.sel = e.selAfter s.sel

/-- What every event leaves unchanged; `CARD_TYPE` is written at the cleanup of `INITIALIZE` alone (R23). -/
structure EventFrame (s t : State) : Prop where
  params : t.params = s.params
  refused : t.refused = s.refused
  bus : BusEvent s t
  cardType : t.cardType = s.cardType ∨
    (s.pos = .initOp .clean ∧ s.work.ty = some t.cardType ∧ t.pos = .initOp .release)

/-- What an event of the dispatcher leaves unchanged: it writes `RES` and `N`, the select line, the trace and the
return stack, and takes bytes from the card (R120). -/
structure DispatchFrame (s t : State) : Prop where
  params : t.params = s.params
  cardType : t.cardType = s.cardType
  pos : t.pos = s.pos
  request : t.request = s.request
  refused : t.refused = s.refused
  failure : t.failure = s.failure
  results : t.results = s.results
  dest : t.dest = s.dest
  work : t.work = { s.work with res := t.work.res, n := t.work.n }
  bus : BusEvent s t

/-- What the resolution of returns leaves unchanged: it makes no event. -/
structure Quiet (s t : State) : Prop where
  params : t.params = s.params
  cardType : t.cardType = s.cardType
  sel : t.sel = s.sel
  request : t.request = s.request
  refused : t.refused = s.refused
  results : t.results = s.results
  trace : t.trace = s.trace
  dest : t.dest = s.dest

theorem Quiet.refl (s : State) : Quiet s s := ⟨rfl, rfl, rfl, rfl, rfl, rfl, rfl, rfl⟩

theorem Quiet.trans {s t u : State} (h : Quiet s t) (h' : Quiet t u) : Quiet s u where
  params := h'.params.trans h.params
  cardType := h'.cardType.trans h.cardType
  sel := h'.sel.trans h.sel
  request := h'.request.trans h.request
  refused := h'.refused.trans h.refused
  results := h'.results.trans h.results
  trace := h'.trace.trans h.trace
  dest := h'.dest.trans h.dest

theorem DispatchFrame.eventFrame {s t : State} (h : DispatchFrame s t) : EventFrame s t :=
  ⟨h.params, h.refused, h.bus, .inl h.cardType⟩

/-! ## The dispatcher -/

theorem bracketEvent_bus (k : Fin 4) (s : State) :
    ∃ e, (bracketEvent k s).trace = e :: s.trace ∧ (bracketEvent k s).sel = e.selAfter s.sel := by
  match k with
  | 0 | 2 => exact ⟨.sel _, rfl, rfl⟩
  | 1 | 3 => exact ⟨.xchg Config.dummy (draw s).1, dummyExchange_trace s, dummyExchange_sel s⟩

theorem bracketStep_frame (w : Frame) (k : Fin 4) (rest : List Call) (s : State) :
    DispatchFrame s (bracketStep w k rest s) where
  params := bracketEvent_params k s
  cardType := bracketEvent_cardType k s
  pos := bracketEvent_pos k s
  request := bracketEvent_request k s
  refused := bracketEvent_refused k s
  failure := bracketEvent_failure k s
  results := bracketEvent_results k s
  dest := bracketEvent_dest k s
  work := by simp [bracketStep]
  bus := .inr (bracketEvent_bus k s)

/-- After `F0` to `F4` the next byte of the frame is due (R123). -/
theorem frameStep_of_lt {k : Fin 6} (h : k.val + 1 < 6) (w : Frame) (rest : List Call) (s : State) :
    frameStep w k rest s =
      { (exchange (frameByte w k) s).2 with calls := ⟨w, .frame ⟨k.val + 1, h⟩⟩ :: rest } := by
  simp only [frameStep, h, dite_true]

/-- After `F5` the response poll begins (R124). -/
theorem frameStep_of_last {k : Fin 6} (h : ¬ k.val + 1 < 6) (w : Frame) (rest : List Call) (s : State) :
    frameStep w k rest s =
      { (exchange (frameByte w k) s).2 with calls := ⟨w, .poll⟩ :: rest, work.n := some Config.nRespPoll } := by
  simp only [frameStep, h, dite_false]

theorem frameStep_frame (w : Frame) (k : Fin 6) (rest : List Call) (s : State) :
    DispatchFrame s (frameStep w k rest s) := by
  by_cases h : k.val + 1 < 6
  · rw [frameStep_of_lt h]
    constructor <;> simp [BusEvent, Event.selAfter]
  · rw [frameStep_of_last h]
    constructor <;> simp [BusEvent, Event.selAfter]

theorem pollStep_frame {w : Frame} {rest : List Call} {s t : State} (h : pollStep w rest s = .next t) :
    DispatchFrame s t := by
  obtain ⟨n, -, rfl⟩ := pollStep_cases h
  constructor <;> simp [BusEvent, Event.selAfter]

theorem DispatchFrame.refl (s : State) : DispatchFrame s s :=
  ⟨rfl, rfl, rfl, rfl, rfl, rfl, rfl, rfl, rfl, .inl ⟨rfl, rfl⟩⟩

theorem dispatchEvent_frame {s t : State} (h : dispatchEvent s = .next t) : DispatchFrame s t := by
  rcases dispatchEvent_cases h with ⟨-, rfl⟩ | ⟨w, rest, -, rfl⟩ | ⟨w, rest, -, rfl⟩ | ⟨w, k, rest, -, rfl⟩ |
    ⟨w, k, rest, -, rfl⟩ | ⟨w, rest, -, h⟩
  · exact .refl _
  · exact .refl _
  · exact bracketStep_frame ..
  · exact bracketStep_frame ..
  · exact frameStep_frame ..
  · exact pollStep_frame h

/-! ## `INITIALIZE` -/

/-- What an event of `INITIALIZE` leaves unchanged before the release: all but the registers it works with (R160). -/
structure InitFrame (s t : State) : Prop where
  dest : t.dest = s.dest
  results : t.results = s.results
  addr : t.work.addr = s.work.addr
  rc : t.work.rc = s.work.rc
  bc : t.work.bc = s.work.bc
  result : t.work.result = s.work.result
  d : t.work.d = s.work.d

theorem DispatchFrame.initFrame {s t : State} (h : DispatchFrame s t) : InitFrame s t :=
  ⟨h.dest, h.results, by rw [h.work], by rw [h.work], by rw [h.work], by rw [h.work], by rw [h.work]⟩

theorem warmEvent_bus (k : Nat) (s : State) :
    ∃ e, (warmEvent k s).trace = e :: s.trace ∧ (warmEvent k s).sel = e.selAfter s.sel := by
  unfold warmEvent
  split
  · exact ⟨.sel false, rfl, rfl⟩
  · split
    · exact ⟨.sel true, rfl, rfl⟩
    · exact ⟨.xchg Config.dummy (draw s).1, dummyExchange_trace s, dummyExchange_sel s⟩

/-- Before the last event of the warm-up (R161). -/
theorem warmStep_of_lt {k : Nat} {s : State} (h : k + 1 < s.params.nWarmupDesel + s.params.nWarmupSel + 2) :
    warmStep k s = gotoInit (.warm (k + 1)) (warmEvent k s) := by
  simp only [warmStep, h, if_true]

/-- The last event of the warm-up (R162, R163). -/
theorem warmStep_of_last {k : Nat} {s : State} (h : ¬ k + 1 < s.params.nWarmupDesel + s.params.nWarmupSel + 2) :
    warmStep k s =
      callFromInit .cmd0 codeCmd0 0#32
        { warmEvent k s with work := { s.work with ty := some 0x00#8 } } := by
  simp only [warmStep, h, if_false, warmEvent_work]

theorem warmStep_frame (k : Nat) (s : State) : EventFrame s (warmStep k s) ∧ InitFrame s (warmStep k s) := by
  have hbus := warmEvent_bus k s
  by_cases h : k + 1 < s.params.nWarmupDesel + s.params.nWarmupSel + 2
  · rw [warmStep_of_lt h]
    exact ⟨⟨by simp, by simp, .inr hbus, by simp⟩, by constructor <;> simp⟩
  · rw [warmStep_of_last h]
    exact ⟨⟨by simp, by simp, .inr hbus, by simp⟩, by constructor <;> simp⟩

@[simp] theorem readBuf_work (k : Fin 4) (s : State) :
    (readBuf k s).work = { s.work with buf := s.work.buf.set k (some (draw s).1) } := by
  simp [readBuf]

theorem readBuf_frame (k : Fin 4) (s : State) : EventFrame s (readBuf k s) ∧ InitFrame s (readBuf k s) :=
  ⟨⟨by simp, by simp, .inr ⟨.xchg Config.dummy (draw s).1, by simp, by simp [Event.selAfter]⟩, by simp⟩,
    by constructor <;> simp⟩

/-- What one echo read does (R165, R166). -/
theorem echoStep_cases {k : Fin 4} {s t : State} (h : echoStep k s = .next t) :
    (∃ k' : Fin 4, k'.val = k.val + 1 ∧ t = gotoInit (.echo k') (readBuf k s)) ∨
    (k = 3 ∧
      (t = callFromInit .hcs codeAcmd41 Config.hcsArg
          { readBuf 3 s with work := { (readBuf 3 s).work with tmr := some Config.nIdlePoll } } ∨
        ∃ b0 b1 b2 b3, t = failEntry (.echo b0 b1 b2 b3) (readBuf 3 s))) := by
  match k with
  | 0 => exact .inl ⟨1, rfl, by simpa [echoStep] using h.symm⟩
  | 1 => exact .inl ⟨2, rfl, by simpa [echoStep] using h.symm⟩
  | 2 => exact .inl ⟨3, rfl, by simpa [echoStep] using h.symm⟩
  | 3 =>
    obtain ⟨b0, -, h⟩ := need_eq_next.mp h
    obtain ⟨b1, -, h⟩ := need_eq_next.mp h
    obtain ⟨b2, -, h⟩ := need_eq_next.mp h
    obtain ⟨b3, -, h⟩ := need_eq_next.mp h
    refine .inr ⟨rfl, ?_⟩
    split at h
    · exact .inl (by simpa using h.symm)
    · exact .inr ⟨b0, b1, b2, b3, by simpa using h.symm⟩

/-- What one OCR read does (R167, R168). -/
theorem ocrStep_cases {k : Fin 4} {s t : State} (h : ocrStep k s = .next t) :
    (∃ k' : Fin 4, k'.val = k.val + 1 ∧ t = gotoInit (.ocrRead k') (readBuf k s)) ∨
    (k = 3 ∧ ∃ b0, t = gotoInit .clean
      { readBuf 3 s with work := { (readBuf 3 s).work with ty := some (classifyOcr b0) } }) := by
  match k with
  | 0 => exact .inl ⟨1, rfl, by simpa [ocrStep] using h.symm⟩
  | 1 => exact .inl ⟨2, rfl, by simpa [ocrStep] using h.symm⟩
  | 2 => exact .inl ⟨3, rfl, by simpa [ocrStep] using h.symm⟩
  | 3 =>
    obtain ⟨b0, -, h⟩ := need_eq_next.mp h
    exact .inr ⟨rfl, b0, by simpa using h.symm⟩

/-- What the cleanup does (R172). -/
theorem initClean_cases {s t : State} (h : initClean s = .next t) :
    ∃ ty, s.work.ty = some ty ∧ t = gotoInit .release (select false { s with cardType := ty }) := by
  obtain ⟨ty, hty, h⟩ := need_eq_next.mp h
  exact ⟨ty, hty, by simpa using h.symm⟩

/-- What the release does (R172, R173). -/
theorem initRelease_cases {s t : State} (h : initRelease s = .next t) :
    ∃ ty, s.work.ty = some ty ∧ t = returnToHost (.initialized (statusOf ty)) (dummyExchange s) := by
  obtain ⟨ty, hty, h⟩ := need_eq_next.mp h
  exact ⟨ty, hty, by simpa using h.symm⟩

/-- What follows an exchange without an event keeps the exchange's frame. -/
theorem EventFrame.of_quiet {s t u : State} (h : EventFrame s t) (hc : t.cardType = s.cardType) (q : Quiet t u) :
    EventFrame s u where
  params := q.params.trans h.params
  refused := q.refused.trans h.refused
  bus := by simpa only [BusEvent, q.trace, q.sel] using h.bus
  cardType := .inl (q.cardType.trans hc)

theorem failEntry_quiet (f : Failure) (s : State) : Quiet s (failEntry f s) := by
  constructor <;> simp

theorem gotoInit_quiet (p : InitPos) (s : State) : Quiet s (gotoInit p s) := by
  constructor <;> simp

theorem echoStep_frame {k : Fin 4} {s t : State} (hp : s.pos = .initOp (.echo k)) (h : echoStep k s = .next t) :
    EventFrame s t ∧ InitFrame s t := by
  obtain ⟨hb, hi⟩ := readBuf_frame k s
  rcases echoStep_cases h with ⟨k', -, rfl⟩ | ⟨rfl, rfl | ⟨b0, b1, b2, b3, rfl⟩⟩
  · exact ⟨hb.of_quiet (by simp) (gotoInit_quiet ..), by constructor <;> simp⟩
  · exact ⟨hb.of_quiet (by simp) (by constructor <;> simp), by constructor <;> simp⟩
  · exact ⟨hb.of_quiet (by simp) (failEntry_quiet ..), by constructor <;> simp [failEntry, hp]⟩

theorem ocrStep_frame {k : Fin 4} {s t : State} (h : ocrStep k s = .next t) : EventFrame s t ∧ InitFrame s t := by
  obtain ⟨hb, hi⟩ := readBuf_frame k s
  rcases ocrStep_cases h with ⟨k', -, rfl⟩ | ⟨rfl, b0, rfl⟩
  · exact ⟨hb.of_quiet (by simp) (gotoInit_quiet ..), by constructor <;> simp⟩
  · exact ⟨hb.of_quiet (by simp) (by constructor <;> simp), by constructor <;> simp⟩

theorem initClean_frame {s t : State} (hp : s.pos = .initOp .clean) (h : initClean s = .next t) :
    EventFrame s t ∧ InitFrame s t := by
  obtain ⟨ty, hty, rfl⟩ := initClean_cases h
  exact ⟨⟨rfl, rfl, .inr ⟨.sel false, rfl, rfl⟩, .inr ⟨hp, hty, rfl⟩⟩, by constructor <;> rfl⟩

theorem initRelease_frame {s t : State} (h : initRelease s = .next t) : EventFrame s t ∧ t.dest = s.dest := by
  obtain ⟨ty, -, rfl⟩ := initRelease_cases h
  exact ⟨⟨by simp, by simp, .inr ⟨.xchg Config.dummy (draw s).1, by simp, by simp [Event.selAfter]⟩, by simp⟩,
    by simp⟩

/-- What an event of `INITIALIZE` leaves unchanged (R160). -/
theorem initEvent_frame {p : InitPos} {s t : State} (hp : s.pos = .initOp p) (h : initEvent p s = .next t) :
    EventFrame s t ∧ t.dest = s.dest ∧ (p = .release ∨ InitFrame s t) := by
  have dispatched (h : dispatchEvent s = .next t) :
      EventFrame s t ∧ t.dest = s.dest ∧ (p = .release ∨ InitFrame s t) :=
    have hf := dispatchEvent_frame h
    ⟨hf.eventFrame, hf.dest, .inr hf.initFrame⟩
  have worked (h : EventFrame s t ∧ InitFrame s t) :
      EventFrame s t ∧ t.dest = s.dest ∧ (p = .release ∨ InitFrame s t) :=
    ⟨h.1, h.2.dest, .inr h.2⟩
  cases p with
  | warm k =>
    obtain rfl : warmStep k s = t := by simpa [initEvent] using h
    exact worked (warmStep_frame k s)
  | echo k => exact worked (echoStep_frame hp h)
  | ocrRead k => exact worked (ocrStep_frame h)
  | clean => exact worked (initClean_frame hp h)
  | release => exact ⟨(initRelease_frame h).1, (initRelease_frame h).2, .inl rfl⟩
  | cmd0 | cmd8 | hcs | ocr | probe | idlex | blen => exact dispatched h

/-- What `INITIALIZE` does when it gives a next state: it refuses the request, is accepted, or makes the event due
(R29, R30, R160). -/
theorem execInitialize_cases {s t : State} (h : execInitialize s = .next t) :
    paramsLegal s.params = true ∧
    (t = refuseRequest s ∨ (s.pos = .idle ∧ s.calls = [] ∧ acceptInit s = .next t) ∨
      ∃ p, s.pos = .initOp p ∧ s.request = none ∧ initEvent p s = .next t) := by
  obtain ⟨hl, h⟩ := underLegalParams_eq_next.mp h
  refine ⟨hl, ?_⟩
  split at h
  · rename_i hp
    split at h
    · rename_i hc
      exact .inr (.inl ⟨hp, hc, h⟩)
    · exact .inl (by simpa using h.symm)
  · rename_i p hp
    split at h
    · rename_i hr
      exact .inr (.inr ⟨p, hp, hr, h⟩)
    · exact .inl (by simpa using h.symm)
  · exact .inl (by simpa using h.symm)

/-- The state of an accepted `INITIALIZE` after its first event (R160, R161). -/
theorem acceptInit_of_legal {s : State} (h : paramsLegal s.params = true) :
    acceptInit s = .next (gotoInit (.warm 1) (select false (acceptRequest s))) := by
  simp only [paramsLegal, Bool.and_eq_true, decide_eq_true_eq] at h
  have hlt : 0 + 1 < s.params.nWarmupDesel + s.params.nWarmupSel + 2 := by omega
  exact congrArg Host.Outcome.next (warmStep_of_lt (s := gotoInit (.warm 0) (acceptRequest s)) hlt)

/-- Settles O32: each event of `INITIALIZE` keeps its frame; a refusal and an acceptance are immediate. -/
theorem initializeFrame : Obligations.InitializeFrame := by
  intro s t h
  obtain ⟨hl, rfl | ⟨hp, -, h⟩ | ⟨p, hp, -, h⟩⟩ := execInitialize_cases h
  · exact ⟨rfl, fun _ => rfl, fun _ => rfl, fun _ => rfl, .inr (.inr ⟨rfl, rfl, rfl, rfl, rfl⟩), .inr rfl⟩
  · rw [acceptInit_of_legal hl] at h
    cases h
    exact ⟨rfl, fun _ => rfl, fun _ => rfl, fun _ => rfl, .inl hp, .inl rfl⟩
  · obtain ⟨hf, hd, hi⟩ := initEvent_frame hp h
    refine ⟨hf.params, fun a => by rw [hd], fun hne => ?_, fun hne => ?_, ?_, .inl hf.refused⟩
    · exact hf.cardType.resolve_right fun hclean => hne hclean.1
    · rcases hi with rfl | hi
      · exact absurd hp hne
      · exact hi.results
    · rcases hi with rfl | hi
      · exact .inr (.inl hp)
      · exact .inr (.inr ⟨hi.addr, hi.rc, hi.bc, hi.result, hi.d⟩)

/-! ## `READ_PARTIAL` -/

theorem tokenDecide_quiet (ops : ReadOperands) (rc : Byte) (s : State) : Quiet s (tokenDecide ops rc s) := by
  unfold tokenDecide
  split
  · constructor <;> simp
  · exact failEntry_quiet ..
  · exact failEntry_quiet ..

/-- One token read: the state after its exchange (R204). -/
def tokenRead (bc : BitVec 16) (s : State) : State :=
  { (exchange Config.dummy s).2 with
    work := { s.work with rc := some (draw s).1, bc := some (bc - 1#16) } }

/-- One token read, with reads left in `BC` (R204). -/
theorem tokenStep_of_some (ops : ReadOperands) {bc : BitVec 16} {s : State} (hbc : s.work.bc = some bc) :
    tokenStep ops s =
      .next (if tokenEnds (draw s).1 (bc - 1#16) then tokenDecide ops (draw s).1 (tokenRead bc s)
        else tokenRead bc s) := by
  simp only [tokenStep, hbc, need_some, exchange_work, exchange_fst, tokenRead]

/-- What one token read does (R204). -/
theorem tokenStep_cases {ops : ReadOperands} {s t : State} (h : tokenStep ops s = .next t) :
    ∃ bc, s.work.bc = some bc ∧
      t = if tokenEnds (draw s).1 (bc - 1#16) then tokenDecide ops (draw s).1 (tokenRead bc s)
        else tokenRead bc s := by
  obtain ⟨bc, hbc, -⟩ := need_eq_next.mp h
  rw [tokenStep_of_some ops hbc] at h
  exact ⟨bc, hbc, by simpa using h.symm⟩

theorem tokenRead_frame (bc : BitVec 16) (s : State) : EventFrame s (tokenRead bc s) :=
  ⟨by simp [tokenRead], by simp [tokenRead],
    .inr ⟨.xchg Config.dummy (draw s).1, by simp [tokenRead], by simp [tokenRead, Event.selAfter]⟩,
    by simp [tokenRead]⟩

theorem tokenStep_frame {ops : ReadOperands} {s t : State} (h : tokenStep ops s = .next t) : EventFrame s t := by
  obtain ⟨bc, -, rfl⟩ := tokenStep_cases h
  split
  · exact (tokenRead_frame bc s).of_quiet (by simp [tokenRead]) (tokenDecide_quiet ..)
  · exact tokenRead_frame bc s

theorem copyStep_frame (ops : ReadOperands) (s : State) : EventFrame s (copyStep ops s) :=
  ⟨by simp [copyStep], by simp [copyStep],
    .inr ⟨.copy ops.dst ops.ofs ops.cnt, by simp [copyStep], by simp [copyStep, Event.selAfter]⟩,
    by simp [copyStep]⟩

/-- What the CRC-16 check does (R208). -/
theorem crcCheck_cases {s t : State} (h : crcCheck s = .next t) :
    t = s ∨ ∃ computed received, t = failEntry (.dataCrc computed received) s := by
  unfold crcCheck at h
  split at h
  · obtain ⟨bytes, -, h⟩ := need_eq_next.mp h
    obtain ⟨hi, -, h⟩ := need_eq_next.mp h
    obtain ⟨lo, -, h⟩ := need_eq_next.mp h
    split at h
    · exact .inl (by simpa using h.symm)
    · exact .inr ⟨_, _, by simpa using h.symm⟩
  · exact .inl (by simpa using h.symm)

/-- What follows the exchange or the write of `D[j]` (R207, R208). -/
theorem nextPacket_cases {ops : ReadOperands} {j : Fin 514} {s t : State} (h : nextPacket ops j s = .next t) :
    (∃ j' : Fin 514, j'.val = j.val + 1 ∧ t = gotoRead ops (.packet j') s) ∨
    (j.val = 513 ∧
      crcCheck (gotoRead ops .clean { s with work := { s.work with result := some .ok } }) = .next t) := by
  unfold nextPacket at h
  split at h
  · rename_i hj
    exact .inl ⟨⟨j.val + 1, hj⟩, rfl, by simpa using h.symm⟩
  · exact .inr ⟨by omega, h⟩

theorem nextPacket_quiet {ops : ReadOperands} {j : Fin 514} {s t : State} (h : nextPacket ops j s = .next t) :
    Quiet s t := by
  rcases nextPacket_cases h with ⟨j', -, rfl⟩ | ⟨-, h⟩
  · constructor <;> simp
  · have hgo : Quiet s (gotoRead ops .clean { s with work := { s.work with result := some .ok } }) := by
      constructor <;> simp
    rcases crcCheck_cases h with rfl | ⟨c, r, rfl⟩
    · exact hgo
    · exact hgo.trans (failEntry_quiet ..)

/-- The state after the exchange that reads `D[j]` (R207). -/
def packetRead (j : Fin 514) (s : State) : State :=
  { (exchange Config.dummy s).2 with work := { s.work with d := setEntry s.work.d j.val (draw s).1 } }

/-- One exchange of the inline copy (R207). -/
theorem packetStep_eq (ops : ReadOperands) (j : Fin 514) (s : State) :
    packetStep ops j s =
      if inWindow ops.ofs ops.cnt j.val then .next (gotoRead ops (.write j) (packetRead j s))
      else nextPacket ops j (packetRead j s) := by
  simp only [packetStep, packetRead, exchange_work, exchange_fst]

theorem packetRead_frame (j : Fin 514) (s : State) : EventFrame s (packetRead j s) :=
  ⟨by simp [packetRead], by simp [packetRead],
    .inr ⟨.xchg Config.dummy (draw s).1, by simp [packetRead], by simp [packetRead, Event.selAfter]⟩,
    by simp [packetRead]⟩

theorem packetStep_frame {ops : ReadOperands} {j : Fin 514} {s t : State} (h : packetStep ops j s = .next t) :
    EventFrame s t := by
  rw [packetStep_eq] at h
  refine (packetRead_frame j s).of_quiet (by simp [packetRead]) ?_
  split at h
  · cases h
    constructor <;> simp
  · exact nextPacket_quiet h

theorem writeStep_frame {ops : ReadOperands} {j : Fin 514} {s t : State} (h : writeStep ops j s = .next t) :
    EventFrame s t := by
  obtain ⟨v, -, h⟩ := need_eq_next.mp h
  have hw : EventFrame s (dstWrite ops.dst (j.val - ops.ofs.toNat) v s) :=
    ⟨rfl, rfl, .inr ⟨.wr ops.dst (j.val - ops.ofs.toNat) v, rfl, rfl⟩, .inl rfl⟩
  exact hw.of_quiet rfl (nextPacket_quiet h)

theorem readRelease_frame {ops : ReadOperands} {s t : State} (h : readRelease ops s = .next t) :
    EventFrame s t := by
  obtain ⟨r, -, h⟩ := need_eq_next.mp h
  cases h
  exact ⟨by simp, by simp, .inr ⟨.xchg Config.dummy (draw s).1, by simp, by simp [Event.selAfter]⟩, by simp⟩

/-- What an event of `READ_PARTIAL` leaves unchanged (R200). -/
theorem readEvent_frame {ops : ReadOperands} {p : ReadPos} {s t : State} (h : readEvent ops p s = .next t) :
    EventFrame s t := by
  cases p with
  | cmd17 => exact (dispatchEvent_frame h).eventFrame
  | token => exact tokenStep_frame h
  | copy =>
    obtain rfl : copyStep ops s = t := by simpa [readEvent] using h
    exact copyStep_frame ops s
  | packet j => exact packetStep_frame h
  | write j => exact writeStep_frame h
  | clean =>
    obtain rfl : gotoRead ops .release (select false s) = t := by simpa [readEvent] using h
    exact ⟨rfl, rfl, .inr ⟨.sel false, rfl, rfl⟩, .inl rfl⟩
  | release => exact readRelease_frame h

/-- What `READ_PARTIAL` does when it gives a next state: it refuses the request, is accepted, or makes the event due
(R29, R30, R200, R201). -/
theorem execReadPartial_cases {dst : Handle} {blk : Word32} {ofs cnt : BitVec 10} {s t : State}
    (h : execReadPartial dst blk ofs cnt s = .next t) :
    paramsLegal s.params = true ∧
    (t = refuseRequest s ∨
      (s.pos = .idle ∧ s.calls = [] ∧ windowOk ofs cnt = true ∧
        dispatchEvent (startRead ⟨dst, blk, ofs, cnt⟩ s) = .next t) ∨
      ∃ p, s.pos = .readOp ⟨dst, blk, ofs, cnt⟩ p ∧ s.request = none ∧
        readEvent ⟨dst, blk, ofs, cnt⟩ p s = .next t) := by
  obtain ⟨hl, h⟩ := underLegalParams_eq_next.mp h
  refine ⟨hl, ?_⟩
  split at h
  · rename_i hp
    split at h
    · rename_i hc
      unfold acceptRead at h
      split at h
      · rename_i hw
        exact .inr (.inl ⟨hp, hc, hw, h⟩)
      · exact .inl (by simpa using h.symm)
    · exact .inl (by simpa using h.symm)
  · exact .inl (by simpa using h.symm)
  · rename_i ops p hp
    split at h
    · rename_i hr
      obtain ⟨hr, rfl⟩ := hr
      exact .inr (.inr ⟨p, hp, hr, h⟩)
    · exact .inl (by simpa using h.symm)

/-! ## Returns -/

theorem prefixReturn_quiet {s t : State} (h : prefixReturn s = .next t) : Quiet s t ∧ t.pos = s.pos := by
  rcases prefixReturn_cases h with ⟨w, rest, res, -, -, rfl⟩ | ⟨-, rfl⟩
  · exact ⟨by constructor <;> rfl, rfl⟩
  · exact ⟨.refl _, rfl⟩

theorem afterHcs_quiet (res : Byte) (tmr : BitVec 16) (s : State) : Quiet s (afterHcs res tmr s) := by
  unfold afterHcs
  dsimp only
  split <;> constructor <;> simp

theorem afterIdlex_quiet (res : Byte) (tmr : BitVec 16) (pcmd : Byte) (s : State) :
    Quiet s (afterIdlex res tmr pcmd s) := by
  unfold afterIdlex
  dsimp only
  split <;> constructor <;> simp

/-- The response use of `INITIALIZE` makes no event (R163 to R171). -/
theorem initReturn_quiet {p : InitPos} {s t : State} (h : initReturn p s = .next t) : Quiet s t := by
  cases p with
  | cmd0 =>
    obtain ⟨res, -, h⟩ := need_eq_next.mp h
    cases h
    unfold afterCmd0
    split
    · constructor <;> simp
    · exact failEntry_quiet ..
  | cmd8 =>
    obtain ⟨res, -, h⟩ := need_eq_next.mp h
    cases h
    unfold afterCmd8
    split <;> constructor <;> simp
  | hcs =>
    obtain ⟨res, -, h⟩ := need_eq_next.mp h
    obtain ⟨tmr, -, h⟩ := need_eq_next.mp h
    cases h
    exact afterHcs_quiet ..
  | ocr =>
    obtain ⟨res, -, h⟩ := need_eq_next.mp h
    cases h
    unfold afterOcr
    split
    · exact gotoInit_quiet ..
    · exact failEntry_quiet ..
  | probe =>
    obtain ⟨res, -, h⟩ := need_eq_next.mp h
    cases h
    constructor <;> simp [afterProbe]
  | idlex =>
    obtain ⟨res, -, h⟩ := need_eq_next.mp h
    obtain ⟨tmr, -, h⟩ := need_eq_next.mp h
    obtain ⟨pcmd, -, h⟩ := need_eq_next.mp h
    cases h
    exact afterIdlex_quiet ..
  | blen =>
    obtain ⟨res, -, h⟩ := need_eq_next.mp h
    cases h
    unfold afterBlen
    split
    · exact gotoInit_quiet ..
    · exact failEntry_quiet ..
  | warm _ | echo _ | ocrRead _ | clean | release =>
    cases h
    exact .refl s

/-- The response use of `READ_PARTIAL` makes no event (R203). -/
theorem readReturn_quiet {ops : ReadOperands} {p : ReadPos} {s t : State} (h : readReturn ops p s = .next t) :
    Quiet s t := by
  cases p with
  | cmd17 =>
    obtain ⟨res, -, h⟩ := need_eq_next.mp h
    obtain ⟨addr, -, h⟩ := need_eq_next.mp h
    cases h
    unfold afterCmd17
    split
    · constructor <;> simp
    · exact failEntry_quiet ..
  | token | copy | packet _ | write _ | clean | release =>
    cases h
    exact .refl s

theorem operationReturn_quiet {s t : State} (h : operationReturn s = .next t) : Quiet s t := by
  unfold operationReturn at h
  split at h
  · cases h
    exact .refl s
  · split at h
    · cases h
      exact .refl s
    · exact initReturn_quiet h
    · exact readReturn_quiet h

/-- The resolution of returns makes no event (R28). -/
theorem settle_quiet {s t : State} (h : settle s = .next t) : Quiet s t := by
  obtain ⟨u, hu, h⟩ := andThen_eq_next.mp h
  exact (prefixReturn_quiet hu).1.trans (operationReturn_quiet h)

/-- At the release of `INITIALIZE` no return is left to resolve. -/
theorem settle_release {s t : State} (hp : s.pos = .initOp .release) (h : settle s = .next t) :
    t.pos = .initOp .release := by
  obtain ⟨u, hu, h⟩ := andThen_eq_next.mp h
  have hup : u.pos = .initOp .release := (prefixReturn_quiet hu).2.trans hp
  unfold operationReturn at h
  split at h
  · cases h
    exact hup
  · simp only [hup, initReturn] at h
    cases h
    exact hup

/-! ## A step -/

/-- A card command is dispatched as its own frame (R120). -/
theorem exec_command_frame {i : Instr} {code : Byte} {arg : Word32} {s t : State}
    (hi : commandOf i = some (code, arg)) (h : exec i s = .next t) : DispatchFrame s t := by
  rw [exec_of_command hi] at h
  rcases dispatch_cases h with ⟨-, -, h⟩ | ⟨c, rest, -, -, h⟩
  · have hf := dispatchEvent_frame h
    exact ⟨hf.params, hf.cardType, hf.pos, hf.request, hf.refused, hf.failure, hf.results, hf.dest, hf.work, hf.bus⟩
  · exact dispatchEvent_frame h

/-- Every instruction refuses the request or keeps the frame of an event (R30). -/
theorem exec_frame {i : Instr} {s t : State} (h : exec i s = .next t) : EventFrame s t ∨ t = refuseRequest s := by
  cases i with
  | hostInitialize =>
    obtain ⟨hl, rfl | ⟨-, -, h⟩ | ⟨p, hp, -, h⟩⟩ := execInitialize_cases h
    · exact .inr rfl
    · rw [acceptInit_of_legal hl] at h
      cases h
      exact .inl ⟨rfl, rfl, .inr ⟨.sel false, rfl, rfl⟩, .inl rfl⟩
    · exact .inl (initEvent_frame hp h).1
  | readPartial dst blk ofs cnt =>
    obtain ⟨-, rfl | ⟨-, -, -, h⟩ | ⟨p, -, -, h⟩⟩ := execReadPartial_cases h
    · exact .inr rfl
    · have hf := dispatchEvent_frame h
      exact .inl ⟨hf.params, hf.refused, hf.bus, .inl hf.cardType⟩
    · exact .inl (readEvent_frame h)
  | acmd41 hcs =>
    cases hcs <;> exact .inl (exec_command_frame rfl h).eventFrame
  | _ => exact .inl (exec_command_frame rfl h).eventFrame

/-- A step refuses a request or keeps the frame of an event, and then resolves returns. -/
theorem step_frame {s t : State} (h : step s = .next t) : EventFrame s t ∨ Quiet (refuseRequest s) t := by
  rcases step_cases h with ⟨-, rfl⟩ | ⟨-, rfl⟩ | ⟨i, u, -, hu, ht⟩
  · exact .inl ⟨rfl, rfl, .inl ⟨rfl, rfl⟩, .inl rfl⟩
  · exact .inr (.refl _)
  · have q := settle_quiet ht
    rcases exec_frame hu with hf | rfl
    · refine .inl ⟨q.params.trans hf.params, q.refused.trans hf.refused, ?_, ?_⟩
      · simpa only [BusEvent, q.trace, q.sel] using hf.bus
      · rw [q.cardType]
        exact hf.cardType.imp_right fun ⟨hp, hty, hr⟩ => ⟨hp, hty, settle_release hr ht⟩
    · exact .inr q

/-- Settles O47: a step keeps the mark or sets it. -/
theorem refusedMarkIsNeverCleared : Obligations.RefusedMarkIsNeverCleared := by
  intro s t h hs
  rcases step_frame h with hf | q
  · exact hf.refused.trans hs
  · exact q.refused

/-- Settles O48: the bus makes at most one event a step. -/
theorem stepAppendsAtMostOneEvent : Obligations.StepAppendsAtMostOneEvent := by
  intro s t h
  rcases step_frame h with hf | q
  · exact ⟨hf.params, hf.bus.imp (·.1) fun ⟨e, he, _⟩ => ⟨e, he⟩⟩
  · exact ⟨q.params, .inl q.trace⟩

/-- Settles O49: the select line follows the event of the step. -/
theorem selectLineFollowsTheTrace : Obligations.SelectLineFollowsTheTrace := by
  intro s t h
  have quiet (ht : t.trace = s.trace) (hsel : t.sel = s.sel) :
      (∀ b, t.trace = .sel b :: s.trace → t.sel = b) ∧ ((∀ b, t.trace ≠ .sel b :: s.trace) → t.sel = s.sel) :=
    ⟨fun b hb => absurd (ht.symm.trans hb) (List.cons_ne_self _ _).symm, fun _ => hsel⟩
  rcases step_frame h with hf | q
  · rcases hf.bus with ⟨ht, hsel⟩ | ⟨e, ht, hsel⟩
    · exact quiet ht hsel
    · cases e with
      | sel b =>
        refine ⟨fun b' hb => ?_, fun hne => absurd ht (hne b)⟩
        rw [ht] at hb
        cases hb
        exact hsel
      | _ => exact ⟨fun b hb => (nomatch ht.symm.trans hb), fun _ => hsel⟩
  · exact quiet q.trace q.sel

/-- Settles O50: no event but the cleanup's writes `CARD_TYPE`. -/
theorem cardTypeIsWrittenOnlyAtCleanup : Obligations.CardTypeIsWrittenOnlyAtCleanup := by
  intro s t h hne
  rcases step_frame h with hf | q
  · exact hf.cardType.resolve_left hne
  · exact absurd q.cardType hne

end Sys2Proof.Machine
end

section
/-! PROOF. A turn of the dispatcher: the event due in the innermost command, and the return of a prefix. -/

namespace Sys2Proof

/-! ## Frames that decode -/

theorem withArg_eq_ok {b : Bool} {i j : Instr} : withArg b i = .ok j ↔ b = true ∧ i = j := by
  unfold withArg
  split <;> simp_all

/-- A command that decodes is one of the eight, with its own argument (R82, R85). -/
theorem decodeCommand_cases {f0 : Byte} {arg : Word32} {i : Instr} (h : decodeCommand f0 arg = .ok i) :
    ∃ code, Machine.commandOf i = some (code, arg) ∧ code &&& 0x7F#8 = f0 := by
  have fixed {a : Word32} {j : Instr} (code : Byte) (hj : Machine.commandOf j = some (code, a))
      (hf : code &&& 0x7F#8 = f0) (h : withArg (arg = a) j = .ok i) :
      ∃ code, Machine.commandOf i = some (code, arg) ∧ code &&& 0x7F#8 = f0 := by
    obtain ⟨ha, rfl⟩ := withArg_eq_ok.mp h
    obtain rfl := of_decide_eq_true ha
    exact ⟨code, hj, hf⟩
  unfold decodeCommand at h
  split_ifs at h with h0 h1 h8 h16 h17 h55 h58 h41 harg
  · exact fixed 0x40#8 rfl h0.symm h
  · exact fixed 0x41#8 rfl h1.symm h
  · exact fixed 0x48#8 rfl h8.symm h
  · exact fixed 0x50#8 rfl h16.symm h
  · cases h
    exact ⟨0x51#8, rfl, h17.symm⟩
  · exact fixed 0x77#8 rfl h55.symm h
  · exact fixed 0x7A#8 rfl h58.symm h
  · cases h
    exact ⟨0xE9#8, by rw [harg]; rfl, h41.symm⟩
  · exact fixed 0xE9#8 rfl h41.symm h

/-- A frame depends on its code below the tag bit alone (R81). -/
theorem frameOf_congr {mode : Crc7Mode} {code code' : Byte} (h : code &&& 0x7F#8 = code' &&& 0x7F#8) (arg : Word32) :
    frameOf mode code arg = frameOf mode code' arg := by
  simp only [frameOf, h]

/-- A frame that decodes is the frame of the command it decodes to (R82, R94). -/
theorem decodeFrame_cases {mode : Crc7Mode} {w : Frame} {i : Instr} (h : decodeFrame mode w = .ok i) :
    ∃ code arg, Machine.commandOf i = some (code, arg) ∧ w = frameOf mode code arg := by
  have hd : decodeCommand (frameF0 w) (frameArg w) = .ok i := by
    unfold decodeFrame at h
    split at h
    · exact h
    · cases h
  obtain ⟨code, hi, hcode⟩ := decodeCommand_cases hd
  have h7 : (frameF0 w).getLsbD 7 = false := by
    rw [← hcode]
    simp
  have hw := frameOf_of_decodeFrame h h7
  refine ⟨code, frameArg w, hi, hw.trans (frameOf_congr ?_ _)⟩
  rw [← hcode, BitVec.and_assoc, BitVec.and_self]

end Sys2Proof

namespace Sys2Proof.Machine

/-! ## The return stack -/

/-- The return stack with a command above `rest`: the innermost command's prefix has not returned, and `rest` is empty
or the application command that waits for it (R28). -/
theorem callsOk_cons {s : State} {c : Call} {rest : List Call} (hc : s.calls = c :: rest) :
    callsOk s = true ↔
      c.pos ≠ .prefixWait ∧ pollOk c s = true ∧
      ((rest = [] ∧ commandFrame s.params.crc7Mode c.frame = true ∧ (c.pos = .prefixDue → frameF0 c.frame = 0x69#8)) ∨
        (∃ w, rest = [⟨w, .prefixWait⟩] ∧ c.pos ≠ .prefixDue ∧ c.frame = frameOf s.params.crc7Mode codeCmd55 0#32 ∧
          commandFrame s.params.crc7Mode w = true ∧ frameF0 w = 0x69#8)) := by
  match rest with
  | [] =>
    simp only [callsOk, hc, Bool.and_eq_true, Bool.or_eq_true, bne_iff_ne, beq_iff_eq]
    constructor
    · rintro ⟨⟨⟨hf, hw⟩, hd⟩, hp⟩
      exact ⟨hw, hp, .inl ⟨trivial, hf, fun h => hd.resolve_left fun hne => hne h⟩⟩
    · rintro ⟨hw, hp, ⟨-, hf, hd⟩ | ⟨w, h, -⟩⟩
      · exact ⟨⟨⟨hf, hw⟩, (em (c.pos = .prefixDue)).symm.imp_right hd⟩, hp⟩
      · cases h
  | [⟨w, p⟩] =>
    simp only [callsOk, hc, Bool.and_eq_true, bne_iff_ne, beq_iff_eq]
    constructor
    · rintro ⟨⟨⟨⟨⟨⟨hf, hw⟩, hd⟩, hp⟩, hframe⟩, h41⟩, rfl⟩
      exact ⟨hw, hp, .inr ⟨w, rfl, hd, hf, hframe, h41⟩⟩
    · rintro ⟨hw, hp, ⟨h, -⟩ | ⟨w', h, hd, hf, hframe, h41⟩⟩
      · cases h
      · cases h
        exact ⟨⟨⟨⟨⟨⟨hf, hw⟩, hd⟩, hp⟩, hframe⟩, h41⟩, rfl⟩
  | _ :: _ :: _ => simp [callsOk, hc]

theorem between_iff {w : Nat} {r : Option (BitVec w)} {lo hi : Nat} :
    between r lo hi = true ↔ ∃ v, r = some v ∧ lo ≤ v.toNat ∧ v.toNat ≤ hi := by
  simp [between, Option.any_eq_true]

/-- A poll read is due only with attempts left (R124). -/
theorem pollOk_of_ne {c : Call} {s : State} (h : c.pos ≠ .poll) : pollOk c s = true := by
  simp [pollOk, h]

/-! ## What a command can still cost -/

/-- The `Sel` events a command can still make, its prefix's included (R122, R126). -/
def CallPos.sels (p : CallPos) : Nat :=
  match p with
  | .prefixDue => 4
  | .prefixWait => 2
  | .bracket k => match k with
    | 0 => 2
    | 1 | 2 => 1
    | 3 => 0
  | .frame _ | .poll => 0

/-- The `Xchg` events a command can still make, with `n` attempts left where it polls, its prefix's included
(R122 to R124, R126). -/
def CallPos.xchgs (n : Nat) (p : CallPos) : Nat :=
  match p with
  | .prefixDue => 36
  | .prefixWait => 18
  | .bracket k => match k with
    | 0 | 1 => 18
    | 2 | 3 => 17
  | .frame k => 16 - k
  | .poll => n

@[simp] theorem CallPos.sels_poll : CallPos.poll.sels = 0 := rfl
@[simp] theorem CallPos.xchgs_poll (n : Nat) : CallPos.poll.xchgs n = n := rfl

/-- The attempts left in `N` (R124). -/
def State.attempts (s : State) : Nat := s.work.n.elim 0 BitVec.toNat

/-- The `Sel` events the commands in progress can still make. -/
def State.callSels (s : State) : Nat := (s.calls.map fun c => c.pos.sels).sum

/-- The `Xchg` events the commands in progress can still make. -/
def State.callXchgs (s : State) : Nat := (s.calls.map fun c => c.pos.xchgs s.attempts).sum

/-- A turn of the dispatcher: one event, after which the innermost command's prefix is resolved. What the commands in
progress can still cost falls by the event, and when the last of them has returned, `RES` holds its response. -/
structure DispatchTurn (s t : State) : Prop extends DispatchFrame s t where
  stack : callsOk t = true
  outermost : t.calls = [] ∨ (t.calls.getLast?).map (·.frame) = (s.calls.getLast?).map (·.frame)
  response : t.calls = [] → t.work.res.isSome
  spent : ∃ e, t.trace = e :: s.trace ∧ selCount [e] + t.callSels ≤ s.callSels ∧
    xchgCount [e] + t.callXchgs ≤ s.callXchgs ∧ copyCount [e] = 0 ∧ wrCount [e] = 0

/-- With a call in progress whose prefix has not returned, no prefix returns. -/
theorem prefixReturn_of_call {s : State} {c : Call} {rest : List Call} (hc : s.calls = c :: rest)
    (hp : c.pos ≠ .prefixWait) : prefixReturn s = .next s := by
  unfold prefixReturn
  split
  · rename_i h
    rw [hc] at h
    cases h
    exact absurd rfl hp
  · rfl

theorem prefixReturn_of_no_call {s : State} (hc : s.calls = []) : prefixReturn s = .next s := by
  unfold prefixReturn
  rw [hc]

/-- The outermost command is the same when the innermost moves. -/
theorem outermost_move {w : Frame} {p q : CallPos} {rest : List Call} :
    ((⟨w, q⟩ :: rest : List Call).getLast?).map (·.frame) = ((⟨w, p⟩ :: rest : List Call).getLast?).map (·.frame) := by
  cases rest <;> simp

/-- What the commands below the innermost can still cost does not depend on `N`: they do not poll. -/
theorem xchgs_below {s : State} {c : Call} {rest : List Call} (hs : callsOk s = true) (hc : s.calls = c :: rest)
    (n m : Nat) : (rest.map fun d => d.pos.xchgs n).sum = (rest.map fun d => d.pos.xchgs m).sum := by
  obtain ⟨-, -, ⟨rfl, -⟩ | ⟨w, rfl, -⟩⟩ := (callsOk_cons hc).mp hs <;> rfl

section Turns

variable {s t : State} {w : Frame} {p q : CallPos} {rest : List Call} {e : Event}

/-- The innermost command moves on by the event `e`, past its prefix. -/
theorem DispatchTurn.of_move (hs : callsOk s = true) (hc : s.calls = ⟨w, p⟩ :: rest) (hf : DispatchFrame s t)
    (ht : t.calls = ⟨w, q⟩ :: rest) (hw : q ≠ .prefixWait) (hd : q ≠ .prefixDue) (hq : pollOk ⟨w, q⟩ t = true)
    (he : t.trace = e :: s.trace) (hsel : selCount [e] + q.sels ≤ p.sels)
    (hxchg : xchgCount [e] + q.xchgs t.attempts ≤ p.xchgs s.attempts)
    (hcopy : copyCount [e] = 0) (hwr : wrCount [e] = 0) : DispatchTurn s t where
  toDispatchFrame := hf
  stack := by
    obtain ⟨-, -, hrest⟩ := (callsOk_cons hc).mp hs
    refine (callsOk_cons ht).mpr ⟨hw, hq, ?_⟩
    rw [hf.params]
    rcases hrest with ⟨hr, hframe, -⟩ | ⟨w', hr, -, hframe⟩
    · exact .inl ⟨hr, hframe, fun h => absurd h hd⟩
    · exact .inr ⟨w', hr, hd, hframe⟩
  outermost := .inr (by rw [hc, ht]; exact outermost_move)
  response := by simp [ht]
  spent := by
    have hbelow := xchgs_below hs hc t.attempts s.attempts
    refine ⟨e, he, ?_, ?_, hcopy, hwr⟩
    · simp only [State.callSels, hc, ht, List.map_cons, List.sum_cons]
      omega
    · simp only [State.callXchgs, hc, ht, List.map_cons, List.sum_cons]
      omega

/-- A turn at a bracketing event (R122). -/
theorem turn_bracket {k : Fin 4} (hs : callsOk s = true) (hc : s.calls = ⟨w, .bracket k⟩ :: rest) :
    DispatchTurn s (bracketStep w k rest s) := by
  have hf := bracketStep_frame w k rest s
  match k with
  | 0 | 2 =>
    refine .of_move (e := .sel _) hs hc hf rfl ?_ ?_ (pollOk_of_ne ?_) rfl ?_ ?_ rfl rfl
    all_goals simp [afterBracket, selCount, xchgCount, CallPos.sels, CallPos.xchgs]
  | 1 | 3 =>
    refine .of_move (e := .xchg Config.dummy (draw s).1) hs hc hf rfl ?_ ?_ (pollOk_of_ne ?_)
      (dummyExchange_trace s) ?_ ?_ rfl rfl
    all_goals simp [afterBracket, selCount, xchgCount, CallPos.sels, CallPos.xchgs]

/-- A turn at a byte of the frame (R123). -/
theorem turn_frame {k : Fin 6} (hs : callsOk s = true) (hc : s.calls = ⟨w, .frame k⟩ :: rest) :
    DispatchTurn s (frameStep w k rest s) := by
  have hf := frameStep_frame w k rest s
  by_cases hk : k.val + 1 < 6
  · rw [frameStep_of_lt hk] at hf ⊢
    refine .of_move (e := .xchg (frameByte w k) (draw s).1) hs hc hf rfl ?_ ?_ (pollOk_of_ne ?_)
      (exchange_trace ..) ?_ ?_ rfl rfl
    all_goals simp [selCount, xchgCount, CallPos.sels, CallPos.xchgs]
    omega
  · rw [frameStep_of_last hk] at hf ⊢
    refine .of_move (e := .xchg (frameByte w k) (draw s).1) hs hc hf rfl ?_ ?_ ?_
      (exchange_trace ..) ?_ ?_ rfl rfl
    all_goals
      simp [pollOk, between, State.attempts, selCount, xchgCount, CallPos.sels, CallPos.xchgs, Config.nRespPoll]
    omega

/-- An application command's first turn begins its prefix (R121). -/
theorem turn_prefix (hs : callsOk s = true) (hc : s.calls = ⟨w, .prefixDue⟩ :: rest) :
    DispatchTurn s (prefixStep w rest s) := by
  obtain ⟨-, -, ⟨rfl, hw, h41⟩ | ⟨w', -, hd, -⟩⟩ := (callsOk_cons hc).mp hs
  · exact {
      toDispatchFrame := bracketStep_frame ..
      stack := by
        refine (callsOk_cons (c := ⟨frameOf s.params.crc7Mode codeCmd55 0#32, .bracket 1⟩)
          (rest := [⟨w, .prefixWait⟩]) rfl).mpr
          ⟨by simp, pollOk_of_ne (by simp), .inr ⟨w, rfl, by simp, rfl, hw, h41 rfl⟩⟩
      outermost := .inr (by rw [hc]; rfl)
      response := nofun
      spent := ⟨.sel false, rfl, by
        simp [State.callSels, State.callXchgs, hc, prefixStep, bracketStep, afterBracket, selCount, xchgCount,
          copyCount, wrCount, CallPos.sels, CallPos.xchgs]⟩ }
  · exact absurd rfl hd

/-- The state after a poll read, with `calls` left in progress (R124). -/
def pollRead (n : Byte) (calls : List Call) (s : State) : State :=
  { (exchange Config.dummy s).2 with
    work := { s.work with res := some (draw s).1, n := some (n - 1#8) }
    calls := calls }

theorem pollStep_of_some {n : Byte} (hn : s.work.n = some n) :
    pollStep w rest s =
      .next (pollRead n (if pollEnds (draw s).1 (n - 1#8) then rest else ⟨w, .poll⟩ :: rest) s) := by
  simp only [pollStep, pollRead, hn, need_some, exchange_work, exchange_fst]
  rfl

theorem pollRead_frame (n : Byte) (calls : List Call) (s : State) : DispatchFrame s (pollRead n calls s) := by
  constructor <;> simp [pollRead, BusEvent, Event.selAfter]

/-- The last poll read of a command ends its turn with `calls` left in progress. -/
theorem DispatchTurn.of_return {n : Byte} {calls : List Call} (hc : s.calls = ⟨w, .poll⟩ :: rest)
    (hn : s.work.n = some n)
    (h1 : 1 ≤ n.toNat) (hstack : callsOk (pollRead n calls s) = true)
    (hout : calls = [] ∨ (calls.getLast?).map (·.frame) = (s.calls.getLast?).map (·.frame))
    (hsel : (calls.map fun d => d.pos.sels).sum ≤ (rest.map fun d => d.pos.sels).sum)
    (hxchg : (calls.map fun d => d.pos.xchgs (n - 1#8).toNat).sum ≤ (rest.map fun d => d.pos.xchgs n.toNat).sum) :
    DispatchTurn s (pollRead n calls s) where
  toDispatchFrame := pollRead_frame ..
  stack := hstack
  outermost := hout
  response := fun _ => rfl
  spent := by
    have ha : s.attempts = n.toNat := by simp [State.attempts, hn]
    refine ⟨.xchg Config.dummy (draw s).1, exchange_trace .., ?_, ?_, rfl, rfl⟩
    · simp only [State.callSels, hc, List.map_cons, List.sum_cons, CallPos.sels_poll, selCount]
      change 0 + (calls.map fun d => d.pos.sels).sum ≤ _
      omega
    · simp only [State.callXchgs, hc, List.map_cons, List.sum_cons, CallPos.xchgs_poll, ha, xchgCount]
      change 0 + 1 + (calls.map fun d => d.pos.xchgs (n - 1#8).toNat).sum ≤ _
      omega

/-- A turn at a response poll: the command polls on, or returns, and the prefix it was may return with it (R121,
R124). -/
theorem turn_poll (hs : callsOk s = true) (hc : s.calls = ⟨w, .poll⟩ :: rest) :
    ∃ u t, pollStep w rest s = .next u ∧ prefixReturn u = .next t ∧ DispatchTurn s t := by
  obtain ⟨-, hpoll, hrest⟩ := (callsOk_cons hc).mp hs
  obtain ⟨n, hn, h1, h10⟩ : ∃ n, s.work.n = some n ∧ 1 ≤ n.toNat ∧ n.toNat ≤ 10 := by
    exact between_iff.mp (by simpa [pollOk] using hpoll)
  by_cases hend : pollEnds (draw s).1 (n - 1#8) = true
  · rcases hrest with ⟨rfl, -⟩ | ⟨w', rfl, -, -, hw', -⟩
    · refine ⟨_, pollRead n [] s, pollStep_of_some hn, ?_, .of_return hc hn h1 rfl (.inl rfl) le_rfl le_rfl⟩
      rw [if_pos hend]
      exact prefixReturn_of_no_call rfl
    · refine ⟨_, pollRead n (if prefixAborts (draw s).1 then [] else [⟨w', .bracket 0⟩]) s, pollStep_of_some hn,
        ?_, ?_⟩
      · rw [if_pos hend]
        rfl
      · split
        · exact .of_return hc hn h1 rfl (.inl rfl) (by simp) (by simp)
        · refine .of_return hc hn h1 ?_ (.inr (by simp [hc])) le_rfl le_rfl
          exact (callsOk_cons rfl).mpr
            ⟨by simp, pollOk_of_ne (by simp), .inl ⟨rfl, by simpa [pollRead] using hw', by simp⟩⟩
  · have hcall : (pollRead n (⟨w, .poll⟩ :: rest) s).calls = ⟨w, .poll⟩ :: rest := rfl
    refine ⟨_, pollRead n (⟨w, .poll⟩ :: rest) s, pollStep_of_some hn, ?_, ?_⟩
    · rw [if_neg hend]
      exact prefixReturn_of_call hcall (by simp)
    · have h0 : n - 1#8 ≠ 0#8 := fun h0 => hend (by simp [pollEnds, h0])
      refine .of_move (e := .xchg Config.dummy (draw s).1) hs hc (pollRead_frame ..) hcall (by simp) (by simp) ?_
        (exchange_trace ..) (by simp [selCount]) ?_ rfl rfl
      · exact Bool.or_eq_true_iff.mpr (.inr (between_iff.mpr ⟨n - 1#8, rfl, by bv_omega, by bv_omega⟩))
      · simp [State.attempts, pollRead, hn, xchgCount, CallPos.xchgs]
        omega

theorem afterBracket_ne_prefixWait (k : Fin 4) : afterBracket k ≠ .prefixWait := by
  unfold afterBracket
  split <;> simp

/-- After a byte of the frame the command is still in progress (R123). -/
theorem frameStep_calls (w : Frame) (k : Fin 6) (rest : List Call) (s : State) :
    ∃ c, (frameStep w k rest s).calls = c :: rest ∧ c.pos ≠ .prefixWait := by
  by_cases hk : k.val + 1 < 6
  · exact ⟨_, by rw [frameStep_of_lt hk], by simp⟩
  · exact ⟨_, by rw [frameStep_of_last hk], by simp⟩

/-- With a command in progress the dispatcher takes its turn: an event, and the return of a prefix (R120 to R124). -/
theorem dispatcher_turn {c : Call} (hs : callsOk s = true) (hc : s.calls = c :: rest) :
    ∃ u t, dispatchEvent s = .next u ∧ prefixReturn u = .next t ∧ DispatchTurn s t := by
  obtain ⟨w, p⟩ := c
  cases p with
  | prefixDue =>
    exact ⟨_, _, by simp only [dispatchEvent, hc], prefixReturn_of_call rfl (afterBracket_ne_prefixWait 0),
      turn_prefix hs hc⟩
  | prefixWait => exact absurd rfl ((callsOk_cons hc).mp hs).1
  | bracket k =>
    exact ⟨_, _, by simp only [dispatchEvent, hc], prefixReturn_of_call rfl (afterBracket_ne_prefixWait k),
      turn_bracket hs hc⟩
  | frame k =>
    obtain ⟨c, hcalls, hne⟩ := frameStep_calls w k rest s
    exact ⟨_, _, by simp only [dispatchEvent, hc], prefixReturn_of_call hcalls hne, turn_frame hs hc⟩
  | poll =>
    obtain ⟨u, t, hu, ht, h⟩ := turn_poll hs hc
    exact ⟨u, t, by simpa [dispatchEvent, hc] using hu, ht, h⟩

end Turns

end Sys2Proof.Machine
end

section
/-! PROOF. The invariant: what it says at each position, and that every step keeps it. -/

namespace Sys2Proof.Machine

/-! ## A step with a command in progress -/

/-- A frame of a command is fetched as the command, whose event is the dispatcher's (R28, R94). -/
theorem fetch_at_call {s : State} {c : Call} {rest : List Call} (hr : s.request = none) (hc : s.calls = c :: rest)
    (hf : commandFrame s.params.crc7Mode c.frame = true) :
    ∃ i, fetch s = .instr i ∧ exec i s = dispatchEvent s := by
  unfold commandFrame decodedInstr at hf
  split at hf
  · rename_i i hd
    obtain ⟨code, arg, hi, hw⟩ := decodeFrame_cases hd
    exact ⟨i, by simp [fetch, hr, hc, fetchFrame, hd], by rw [exec_of_command hi, dispatch_at_call hc hw]⟩
  · cases hf

/-- The prefix is one of the eight commands (R82). -/
theorem commandFrame_prefix (mode : Crc7Mode) : commandFrame mode (frameOf mode codeCmd55 0#32) = true := by
  simp only [commandFrame, decodeFrame_frameOf]
  rfl

/-- The innermost command's frame decodes. -/
theorem commandFrame_of_callsOk {s : State} {c : Call} {rest : List Call} (hs : callsOk s = true)
    (hc : s.calls = c :: rest) : commandFrame s.params.crc7Mode c.frame = true := by
  obtain ⟨-, -, ⟨-, hf, -⟩ | ⟨w, -, -, hf, -⟩⟩ := (callsOk_cons hc).mp hs
  · exact hf
  · rw [hf]
    exact commandFrame_prefix _

/-- A step with a command in progress is a turn of the dispatcher, after which the operation goes on if no command is
left (R28, R120). -/
theorem step_of_call {s : State} {c : Call} {rest : List Call} (hs : callsOk s = true) (hr : s.request = none)
    (hc : s.calls = c :: rest) : ∃ t, DispatchTurn s t ∧ step s = operationReturn t := by
  obtain ⟨i, hi, hexec⟩ := fetch_at_call hr hc (commandFrame_of_callsOk hs hc)
  obtain ⟨u, t, hu, ht, h⟩ := dispatcher_turn hs hc
  exact ⟨t, h, by simp only [step, hi, hexec, hu, settle, ht, andThen_next]⟩

/-! ## The invariant, part by part -/

theorem inv_iff {s : State} :
    s.inv = true ↔
      cardTypes.contains s.cardType = true ∧ callsOk s = true ∧ positionOk s = true ∧ s.dest.wf = true := by
  simp [State.inv, and_assoc]

theorem callsOk_of_inv {s : State} (h : s.inv = true) : callsOk s = true := by
  obtain ⟨-, hcalls, -, -⟩ := inv_iff.mp h
  exact hcalls

/-- At a position of `INITIALIZE` the invariant says what holds there. -/
theorem initOk_of_inv {s : State} {p : InitPos} (h : s.inv = true) (hp : s.pos = .initOp p) : initOk p s = true := by
  obtain ⟨-, -, hok, -⟩ := inv_iff.mp h
  simpa [positionOk, hp] using hok

/-- At a position of `READ_PARTIAL` the invariant says what holds there. -/
theorem readOk_of_inv {s : State} {ops : ReadOperands} {p : ReadPos} (h : s.inv = true) (hp : s.pos = .readOp ops p) :
    readOk ops p s = true := by
  obtain ⟨-, -, hok, -⟩ := inv_iff.mp h
  simpa [positionOk, hp] using hok

/-- Settles O55: every part of the invariant holds at reset. -/
theorem resetMeetsTheInvariant : Obligations.ResetMeetsTheInvariant :=
  inv_iff.mpr ⟨rfl, rfl, rfl, rfl⟩

theorem callsOk_nil {s : State} (hc : s.calls = []) : callsOk s = true := by
  simp [callsOk, hc]

/-- Entering one of the eight commands, with no command in progress (R120). -/
theorem callsOk_enterCall {s : State} {code : Byte} {arg : Word32} (hc : s.calls = [])
    (hd : (decodedInstr (decodeCommand (code &&& 0x7F#8) arg)).isSome = true)
    (ha : isApp code = true → code &&& 0x7F#8 = 0x69#8) : callsOk (enterCall code arg s) = true := by
  have hcalls : (enterCall code arg s).calls = callOf s.params.crc7Mode code arg :: [] := by simp [hc]
  refine (callsOk_cons hcalls).mpr ⟨?_, pollOk_of_ne ?_, .inl ⟨rfl, ?_, fun hp => ?_⟩⟩
  · unfold callOf; split <;> simp
  · unfold callOf; split <;> simp
  · simpa [callOf, commandFrame, decodeFrame_frameOf] using hd
  · simp only [callOf, frameF0_frameOf] at hp ⊢
    split at hp
    · exact ha ‹_›
    · cases hp

/-- The command just entered is the one in progress. -/
theorem calling_enterCall {s : State} {code : Byte} {arg : Word32} (hc : s.calls = []) :
    calling code arg (enterCall code arg s) = true := by
  simp [calling, hc, callOf]

theorem calling_congr {s t : State} (hm : t.params = s.params)
    (hl : (t.calls.getLast?).map (·.frame) = (s.calls.getLast?).map (·.frame)) (code : Byte) (arg : Word32) :
    calling code arg t = calling code arg s := by
  have any_frame (l : Option Call) (w : Frame) : l.any (fun c => c.frame == w) = (l.map (·.frame)).any (· == w) := by
    cases l <;> rfl
  simp only [calling, any_frame, hl, hm]

/-- No command is in progress where one is called. -/
theorem calls_ne_nil_of_calling {s : State} {code : Byte} {arg : Word32} (h : calling code arg s = true) :
    s.calls ≠ [] := by
  intro hc
  simp [calling, hc] at h

/-- The position's part of the invariant reads neither `RES` nor `N`, nor anything of the return stack but its
outermost command. -/
theorem DispatchFrame.positionOk_eq {s t : State} (h : DispatchFrame s t) (he : t.calls.isEmpty = s.calls.isEmpty)
    (hl : (t.calls.getLast?).map (·.frame) = (s.calls.getLast?).map (·.frame)) : positionOk t = positionOk s := by
  have hcall := calling_congr h.params hl
  have htmr : t.work.tmr = s.work.tmr := by rw [h.work]
  have hbc : t.work.bc = s.work.bc := by rw [h.work]
  have hbuf : t.work.buf = s.work.buf := by rw [h.work]
  have hty : t.work.ty = s.work.ty := by rw [h.work]
  have hpcmd : t.work.pcmd = s.work.pcmd := by rw [h.work]
  have haddr : t.work.addr = s.work.addr := by rw [h.work]
  have hresult : t.work.result = s.work.result := by rw [h.work]
  have hd : t.work.d = s.work.d := by rw [h.work]
  unfold positionOk
  rw [h.pos]
  cases s.pos with
  | idle => rfl
  | initOp p =>
    cases p <;>
      simp only [initOk, initPending, bufWritten, hcall, he, h.params, h.failure, h.cardType, htmr, hbuf, hty, hpcmd]
  | readOp ops p =>
    cases p <;>
      simp only [readOk, readPending, readDecided, dWritten, hcall, he, h.params, h.failure, hbc, haddr, hresult, hd]

end Sys2Proof.Machine
end

section
/-! PROOF. The use `INITIALIZE` makes of each response: it meets the invariant, and costs no more than was left. -/

namespace Sys2Proof.Machine

/-! ## What the invariant says at each position of `INITIALIZE` -/

theorem initPending_iff {s : State} : initPending s = true ↔ s.work.ty = some 0x00#8 ∧ s.failure = none := by
  simp [initPending]

/-- A label is recorded exactly with the value `v` empty (R237). -/
theorem label_iff {f : Option Failure} {v : Byte} :
    (f.isSome == (v == 0x00#8)) = true ↔ (f.isSome = true ↔ v = 0x00#8) := by
  rw [beq_iff_eq, Bool.eq_iff_iff, beq_iff_eq]

theorem bufWritten_iff {k : Fin 4} {s : State} :
    bufWritten k s = true ↔ ∀ j : Fin 4, j < k → (s.work.buf[j]).isSome = true := by
  simp [bufWritten, imp_iff_not_or]

theorem bufWritten_zero (s : State) : bufWritten 0 s = true :=
  bufWritten_iff.mpr fun j hj => absurd hj (Fin.not_lt_zero j)

section Positions

variable {s : State}

theorem initOk_warm {k : Nat} : initOk (.warm k) s = true ↔
    s.calls = [] ∧ k < s.params.nWarmupDesel + s.params.nWarmupSel + 2 ∧ s.failure = none := by
  simp [initOk, and_assoc]

theorem initOk_cmd0 : initOk .cmd0 s = true ↔ calling codeCmd0 0#32 s = true ∧ initPending s = true := by
  simp [initOk]

theorem initOk_cmd8 : initOk .cmd8 s = true ↔ calling codeCmd8 Config.ifCondArg s = true ∧ initPending s = true := by
  simp [initOk]

theorem initOk_echo {k : Fin 4} :
    initOk (.echo k) s = true ↔ s.calls = [] ∧ initPending s = true ∧ bufWritten k s = true := by
  simp [initOk, and_assoc]

theorem initOk_hcs : initOk .hcs s = true ↔
    calling codeAcmd41 Config.hcsArg s = true ∧ initPending s = true ∧
      ∃ tmr, s.work.tmr = some tmr ∧ 1 ≤ tmr.toNat ∧ tmr.toNat ≤ 25000 := by
  simp [initOk, between_iff, and_assoc]

theorem initOk_ocr : initOk .ocr s = true ↔ calling codeCmd58 0#32 s = true ∧ initPending s = true := by
  simp [initOk]

theorem initOk_ocrRead {k : Fin 4} :
    initOk (.ocrRead k) s = true ↔ s.calls = [] ∧ initPending s = true ∧ bufWritten k s = true := by
  simp [initOk, and_assoc]

theorem initOk_probe : initOk .probe s = true ↔ calling codeAcmd41 0#32 s = true ∧ initPending s = true := by
  simp [initOk]

/-- At the SD-v1/MMC idle-exit poll `TY` and `PCMD` are those of one of the two branches of the probe (R169). -/
theorem initOk_idlex : initOk .idlex s = true ↔
    s.failure = none ∧ (∃ tmr, s.work.tmr = some tmr ∧ 1 ≤ tmr.toNat ∧ tmr.toNat ≤ 25000) ∧
      ∃ ty pcmd, s.work.ty = some ty ∧ s.work.pcmd = some pcmd ∧ calling pcmd 0#32 s = true ∧
        ((ty = 0x02#8 ∧ pcmd = codeAcmd41) ∨ (ty = 0x01#8 ∧ pcmd = codeCmd1)) := by
  have hbranch : ((((s.work.ty == some 0x02#8) && (s.work.pcmd == some codeAcmd41) && calling codeAcmd41 0#32 s) ||
      ((s.work.ty == some 0x01#8) && (s.work.pcmd == some codeCmd1) && calling codeCmd1 0#32 s)) = true) ↔
      ∃ ty pcmd, s.work.ty = some ty ∧ s.work.pcmd = some pcmd ∧ calling pcmd 0#32 s = true ∧
        ((ty = 0x02#8 ∧ pcmd = codeAcmd41) ∨ (ty = 0x01#8 ∧ pcmd = codeCmd1)) := by
    simp only [Bool.or_eq_true, Bool.and_eq_true, beq_iff_eq]
    constructor
    · rintro (⟨⟨hty, hpcmd⟩, hcall⟩ | ⟨⟨hty, hpcmd⟩, hcall⟩)
      · exact ⟨_, _, hty, hpcmd, hcall, .inl ⟨rfl, rfl⟩⟩
      · exact ⟨_, _, hty, hpcmd, hcall, .inr ⟨rfl, rfl⟩⟩
    · rintro ⟨ty, pcmd, hty, hpcmd, hcall, ⟨rfl, rfl⟩ | ⟨rfl, rfl⟩⟩
      · exact .inl ⟨⟨hty, hpcmd⟩, hcall⟩
      · exact .inr ⟨⟨hty, hpcmd⟩, hcall⟩
  simp only [initOk, Bool.and_eq_true, beq_iff_eq, between_iff, hbranch, and_assoc]

theorem initOk_blen : initOk .blen s = true ↔
    calling codeCmd16 Config.blockLenArg s = true ∧ s.failure = none ∧
      (s.work.ty = some 0x02#8 ∨ s.work.ty = some 0x01#8) := by
  simp [initOk, and_assoc]

theorem initOk_clean : initOk .clean s = true ↔
    s.calls = [] ∧ ∃ ty, s.work.ty = some ty ∧ cardTypes.contains ty = true ∧ (s.failure.isSome ↔ ty = 0x00#8) := by
  simp only [initOk, Bool.and_eq_true, List.isEmpty_iff, Option.any_eq_true, label_iff]

theorem initOk_release : initOk .release s = true ↔
    s.calls = [] ∧ s.work.ty = some s.cardType ∧ (s.failure.isSome ↔ s.cardType = 0x00#8) := by
  rw [initOk, Bool.and_eq_true, Bool.and_eq_true, label_iff, List.isEmpty_iff, beq_iff_eq, and_assoc]

end Positions

/-! ## What `INITIALIZE` can still cost (R281) -/

/-- The `Sel` events of the warm-up from its event `k` on (R161). -/
def warmSels (desel k : Nat) : Nat :=
  if k = 0 then 2 else if k ≤ desel + 1 then 1 else 0

/-- The `Sel` events `INITIALIZE` can still make from position `p`, those of the command in progress left out. -/
def InitPos.sels (desel tmr : Nat) (p : InitPos) : Nat :=
  match p with
  | .warm k => 100011 + warmSels desel k
  | .cmd0 => 100009
  | .cmd8 => 100007
  | .echo _ | .probe => 100003
  | .hcs | .idlex => 4 * (tmr - 1) + 3
  | .ocr | .ocrRead _ | .blen | .clean => 1
  | .release => 0

/-- The `Xchg` events `INITIALIZE` can still make from position `p`, those of the command in progress left out. -/
def InitPos.xchgs (desel sel tmr : Nat) (p : InitPos) : Nat :=
  match p with
  | .warm k => 900091 + (desel + sel + 2 - k - warmSels desel k)
  | .cmd0 => 900073
  | .cmd8 => 900055
  | .echo k => 900027 - k
  | .hcs => 36 * (tmr - 1) + 23
  | .ocr => 5
  | .ocrRead k => 5 - k
  | .probe => 900019
  | .idlex => 36 * (tmr - 1) + 19
  | .blen | .clean | .release => 1

/-- The attempts left in `TMR` (R166, R170). -/
def State.idleAttempts (s : State) : Nat := s.work.tmr.elim 0 BitVec.toNat

/-- The `Sel` events a running `INITIALIZE` can still make. -/
def State.selsLeft (s : State) : Nat :=
  s.callSels + match s.pos with
    | .initOp p => p.sels s.params.nWarmupDesel s.idleAttempts
    | .idle | .readOp _ _ => 0

/-- The `Xchg` events a running `INITIALIZE` can still make. -/
def State.xchgsLeft (s : State) : Nat :=
  s.callXchgs + match s.pos with
    | .initOp p => p.xchgs s.params.nWarmupDesel s.params.nWarmupSel s.idleAttempts
    | .idle | .readOp _ _ => 0

theorem selsLeft_of_pos {s : State} {p : InitPos} (hp : s.pos = .initOp p) :
    s.selsLeft = s.callSels + p.sels s.params.nWarmupDesel s.idleAttempts := by
  simp only [State.selsLeft, hp]

theorem xchgsLeft_of_pos {s : State} {p : InitPos} (hp : s.pos = .initOp p) :
    s.xchgsLeft = s.callXchgs + p.xchgs s.params.nWarmupDesel s.params.nWarmupSel s.idleAttempts := by
  simp only [State.xchgsLeft, hp]

theorem callSels_nil {s : State} (h : s.calls = []) : s.callSels = 0 := by simp [State.callSels, h]
theorem callXchgs_nil {s : State} (h : s.calls = []) : s.callXchgs = 0 := by simp [State.callXchgs, h]

/-- From `s` to `t`, inside `INITIALIZE`, the events `evs` are made, newest first; what can still be made falls by
them, and nothing of the host's interface changes. -/
structure Spends (evs : List Event) (s t : State) : Prop where
  trace : t.trace = evs ++ s.trace
  sels : selCount evs + t.selsLeft ≤ s.selsLeft
  xchgs : xchgCount evs + t.xchgsLeft ≤ s.xchgsLeft
  copies : copyCount evs = 0
  writes : wrCount evs = 0
  params : t.params = s.params
  request : t.request = s.request
  refused : t.refused = s.refused
  results : t.results = s.results

/-- `INITIALIZE` is running, before its release, and the invariant holds. -/
structure Running (s : State) : Prop where
  inv : s.inv = true
  pos : ∃ p, s.pos = .initOp p ∧ p ≠ .release

/-- Between two commands: none is in progress. -/
structure Between (s : State) : Prop where
  calls : s.calls = []
  cardType : cardTypes.contains s.cardType = true
  dest : s.dest.wf = true

theorem Between.inv {s : State} (h : Between s) (hp : positionOk s = true) : s.inv = true :=
  inv_iff.mpr ⟨h.cardType, callsOk_nil h.calls, hp, h.dest⟩

theorem Between.inv_init {s : State} {p : InitPos} (h : Between s) (hp : s.pos = .initOp p)
    (hok : initOk p s = true) : s.inv = true :=
  h.inv (by simpa [positionOk, hp] using hok)

theorem Between.running {s : State} {p : InitPos} (h : Between s) (hp : s.pos = .initOp p) (hok : initOk p s = true)
    (hne : p ≠ .release := by nofun) : Running s :=
  ⟨h.inv_init hp hok, p, hp, hne⟩

/-- The failure entry of `INITIALIZE` meets the invariant (R233). -/
theorem Between.running_failEntry {s : State} {p : InitPos} (h : Between s) (hp : s.pos = .initOp p) (f : Failure) :
    Running (failEntry f s) := by
  rw [failEntry_initOp f s p hp]
  exact Between.running ⟨h.calls, h.cardType, h.dest⟩ rfl (by simp [initOk, h.calls, cardTypes])

/-- Entering a command from `INITIALIZE` meets the invariant, if the registers of its position hold. -/
theorem Between.running_call {s : State} {p : InitPos} {code : Byte} {arg : Word32} (h : Between s)
    (hd : (decodedInstr (decodeCommand (code &&& 0x7F#8) arg)).isSome = true)
    (ha : isApp code = true → code &&& 0x7F#8 = 0x69#8)
    (hok : calling code arg (callFromInit p code arg s) = true → initOk p (callFromInit p code arg s) = true)
    (hne : p ≠ .release := by nofun) : Running (callFromInit p code arg s) := by
  have hcall : calling code arg (callFromInit p code arg s) = true := calling_enterCall (s := gotoInit p s) h.calls
  exact ⟨inv_iff.mpr ⟨h.cardType, callsOk_enterCall (s := gotoInit p s) h.calls hd ha, hok hcall, h.dest⟩, p, rfl, hne⟩

theorem callSels_callFromInit {s : State} (h : s.calls = []) (p : InitPos) (code : Byte) (arg : Word32) :
    (callFromInit p code arg s).callSels = if isApp code then 4 else 2 := by
  simp only [State.callSels, callFromInit_calls, h, callOf, List.map_cons, List.map_nil, List.sum_cons, List.sum_nil]
  split <;> rfl

theorem callXchgs_callFromInit {s : State} (h : s.calls = []) (p : InitPos) (code : Byte) (arg : Word32) :
    (callFromInit p code arg s).callXchgs = if isApp code then 36 else 18 := by
  simp only [State.callXchgs, callFromInit_calls, h, callOf, List.map_cons, List.map_nil, List.sum_cons, List.sum_nil]
  split <;> rfl

/-- `INITIALIZE` goes on from `s` to `t` without an event. -/
def Onward (s t : State) : Prop := Running t ∧ Spends [] s t

/-- Going on without an event spends nothing, if what is left at the new position is no more. -/
theorem Between.spends {s t : State} {p q : InitPos} (h : Between s) (hp : s.pos = .initOp p)
    (hq : t.pos = .initOp q) (k : Quiet s t)
    (hsel : t.callSels + q.sels s.params.nWarmupDesel t.idleAttempts ≤
      p.sels s.params.nWarmupDesel s.idleAttempts)
    (hxchg : t.callXchgs + q.xchgs s.params.nWarmupDesel s.params.nWarmupSel t.idleAttempts ≤
      p.xchgs s.params.nWarmupDesel s.params.nWarmupSel s.idleAttempts) : Spends [] s t where
  trace := k.trace
  sels := by
    rw [selsLeft_of_pos hp, selsLeft_of_pos hq, callSels_nil h.calls, k.params]
    simpa [selCount] using hsel
  xchgs := by
    rw [xchgsLeft_of_pos hp, xchgsLeft_of_pos hq, callXchgs_nil h.calls, k.params]
    simpa [xchgCount] using hxchg
  copies := rfl
  writes := rfl
  params := k.params
  request := k.request
  refused := k.refused
  results := k.results

/-- The failure entry goes on to the cleanup, from `t`, which is `s` with other working registers (R233). -/
theorem Between.onward_failEntry {s t : State} {p : InitPos} (h : Between s) (hp : s.pos = .initOp p)
    (hc : t.calls = s.calls) (ht : t.pos = s.pos) (k : Quiet s t) (f : Failure)
    (hsel : 1 ≤ p.sels s.params.nWarmupDesel s.idleAttempts)
    (hxchg : 1 ≤ p.xchgs s.params.nWarmupDesel s.params.nWarmupSel s.idleAttempts) : Onward s (failEntry f t) := by
  have h' : Between t := ⟨hc.trans h.calls, by rw [k.cardType]; exact h.cardType, by rw [k.dest]; exact h.dest⟩
  have hcalls : (failEntry f t).calls = [] := by simp [h'.calls]
  have hclean : (failEntry f t).pos = .initOp .clean := by rw [failEntry_initOp f t p (ht.trans hp)]
  refine ⟨h'.running_failEntry (ht.trans hp) f, h.spends hp hclean (k.trans (failEntry_quiet f t)) ?_ ?_⟩
  · simpa [callSels_nil hcalls, InitPos.sels] using hsel
  · simpa [callXchgs_nil hcalls, InitPos.xchgs] using hxchg

/-- Going on to a position between two commands. -/
theorem Between.onward_goto {s : State} {p q : InitPos} (h : Between s) (hp : s.pos = .initOp p)
    (hok : initOk q (gotoInit q s) = true)
    (hsel : q.sels s.params.nWarmupDesel s.idleAttempts ≤ p.sels s.params.nWarmupDesel s.idleAttempts)
    (hxchg : q.xchgs s.params.nWarmupDesel s.params.nWarmupSel s.idleAttempts ≤
      p.xchgs s.params.nWarmupDesel s.params.nWarmupSel s.idleAttempts)
    (hne : q ≠ .release := by nofun) : Onward s (gotoInit q s) := by
  have h' : Between (gotoInit q s) := ⟨h.calls, h.cardType, h.dest⟩
  refine ⟨h'.running rfl hok hne, h.spends hp rfl (gotoInit_quiet q s) ?_ ?_⟩
  · rw [callSels_nil h'.calls, Nat.zero_add]
    exact hsel
  · rw [callXchgs_nil h'.calls, Nat.zero_add]
    exact hxchg

/-- Going on to a command, from `t`, which is `s` with other working registers. -/
theorem Between.onward_call {s t : State} {p q : InitPos} {code : Byte} {arg : Word32} (h : Between s)
    (hp : s.pos = .initOp p) (hc : t.calls = s.calls) (k : Quiet s t)
    (hd : (decodedInstr (decodeCommand (code &&& 0x7F#8) arg)).isSome = true)
    (ha : isApp code = true → code &&& 0x7F#8 = 0x69#8)
    (hok : calling code arg (callFromInit q code arg t) = true → initOk q (callFromInit q code arg t) = true)
    (hsel : (if isApp code then 4 else 2) + q.sels s.params.nWarmupDesel t.idleAttempts ≤
      p.sels s.params.nWarmupDesel s.idleAttempts)
    (hxchg : (if isApp code then 36 else 18) + q.xchgs s.params.nWarmupDesel s.params.nWarmupSel t.idleAttempts ≤
      p.xchgs s.params.nWarmupDesel s.params.nWarmupSel s.idleAttempts)
    (hne : q ≠ .release := by nofun) : Onward s (callFromInit q code arg t) := by
  have h' : Between t := ⟨hc.trans h.calls, by rw [k.cardType]; exact h.cardType, by rw [k.dest]; exact h.dest⟩
  refine ⟨h'.running_call hd ha hok hne, h.spends hp rfl (k.trans (by constructor <;> rfl)) ?_ ?_⟩
  · rw [callSels_callFromInit h'.calls]
    exact hsel
  · rw [callXchgs_callFromInit h'.calls]
    exact hxchg

/-- The three outcomes of an attempt of an idle-exit poll, `left` attempts being left (R166, R170). -/
theorem pollTurn_cases (res : Byte) {tmr : BitVec 16} (h : 1 ≤ tmr.toNat) :
    pollTurn res tmr = (tmr, .success) ∨ ∃ left : BitVec 16, left.toNat + 1 = tmr.toNat ∧
      ((pollTurn res tmr = (left, .again) ∧ 1 ≤ left.toNat) ∨ pollTurn res tmr = (left, .timeout)) := by
  have hne : tmr ≠ 0#16 := by bv_omega
  unfold pollTurn
  by_cases hres : res = 0x00#8
  · exact .inl (by simp [hres, hne])
  · refine .inr ⟨tmr - 1#16, by bv_omega, ?_⟩
    by_cases hlast : tmr - 1#16 = 0#16
    · exact .inr (by simp [hres, hlast])
    · exact .inl ⟨by simp [hres, hlast], by bv_omega⟩

/-! ## The use of each response -/

section Returns

variable {s : State} (h : Between s) (res : Byte)

include h

theorem afterCmd0_onward (hp : s.pos = .initOp .cmd0) (hi : initPending s = true) : Onward s (afterCmd0 res s) := by
  unfold afterCmd0
  split
  · refine h.onward_call hp rfl (.refl s) rfl (by decide) (fun hcall => initOk_cmd8.mpr ⟨hcall, hi⟩) ?_ ?_
    · simp [InitPos.sels, isApp, codeCmd8]
    · simp [InitPos.xchgs, isApp, codeCmd8]
  · exact h.onward_failEntry hp rfl rfl (.refl s) _ (by simp [InitPos.sels]) (by simp [InitPos.xchgs])

theorem afterCmd8_onward (hp : s.pos = .initOp .cmd8) (hi : initPending s = true) : Onward s (afterCmd8 res s) := by
  unfold afterCmd8
  split
  · exact h.onward_goto hp (initOk_echo.mpr ⟨h.calls, hi, bufWritten_zero _⟩) (by simp [InitPos.sels])
      (by simp [InitPos.xchgs])
  · refine h.onward_call hp rfl (.refl s) rfl (by decide) (fun hcall => initOk_probe.mpr ⟨hcall, hi⟩) ?_ ?_
    · simp [InitPos.sels, isApp, codeAcmd41]
    · simp [InitPos.xchgs, isApp, codeAcmd41]

theorem afterHcs_onward {tmr : BitVec 16} (hp : s.pos = .initOp .hcs) (hi : initPending s = true)
    (ht : s.work.tmr = some tmr) (h1 : 1 ≤ tmr.toNat) (hmax : tmr.toNat ≤ 25000) : Onward s (afterHcs res tmr s) := by
  unfold afterHcs
  obtain hturn | ⟨left, hl, ⟨hturn, hmore⟩ | hturn⟩ := pollTurn_cases res h1 <;> rw [hturn] <;> dsimp only
  · refine h.onward_call hp rfl (by constructor <;> rfl) rfl (by decide)
      (fun hcall => initOk_ocr.mpr ⟨hcall, hi⟩) ?_ ?_
    · simp [InitPos.sels, isApp, codeCmd58]
    · simp [InitPos.xchgs, isApp, codeCmd58]
  · refine h.onward_call hp rfl (by constructor <;> rfl) rfl (by decide)
      (fun hcall => initOk_hcs.mpr ⟨hcall, hi, left, rfl, hmore, by omega⟩) ?_ ?_
    · simp [InitPos.sels, isApp, codeAcmd41, State.idleAttempts, ht]
      omega
    · simp [InitPos.xchgs, isApp, codeAcmd41, State.idleAttempts, ht]
      omega
  · exact h.onward_failEntry (t := { s with work.tmr := some left }) hp rfl rfl (by constructor <;> rfl) _
      (by simp [InitPos.sels]) (by simp [InitPos.xchgs])

theorem afterOcr_onward (hp : s.pos = .initOp .ocr) (hi : initPending s = true) : Onward s (afterOcr res s) := by
  unfold afterOcr
  split
  · exact h.onward_goto hp (initOk_ocrRead.mpr ⟨h.calls, hi, bufWritten_zero _⟩) (by simp [InitPos.sels])
      (by simp [InitPos.xchgs])
  · exact h.onward_failEntry hp rfl rfl (.refl s) _ (by simp [InitPos.sels]) (by simp [InitPos.xchgs])

/-- Either branch of the probe begins the idle-exit poll (R169, R170). -/
theorem afterProbe_onward (hp : s.pos = .initOp .probe) (hi : initPending s = true) : Onward s (afterProbe res s) := by
  obtain ⟨-, hfail⟩ := initPending_iff.mp hi
  unfold afterProbe classifyProbe
  split
  · refine h.onward_call hp rfl (by constructor <;> rfl) rfl (by decide)
      (fun hcall => initOk_idlex.mpr
        ⟨hfail, ⟨_, rfl, by decide, by decide⟩, _, _, rfl, rfl, hcall, .inl ⟨rfl, rfl⟩⟩) ?_ ?_
    · simp [InitPos.sels, isApp, State.idleAttempts, Config.nIdlePoll]
    · simp [InitPos.xchgs, isApp, State.idleAttempts, Config.nIdlePoll]
  · refine h.onward_call hp rfl (by constructor <;> rfl) rfl (by decide)
      (fun hcall => initOk_idlex.mpr
        ⟨hfail, ⟨_, rfl, by decide, by decide⟩, _, _, rfl, rfl, hcall, .inr ⟨rfl, rfl⟩⟩) ?_ ?_
    · simp [InitPos.sels, isApp, State.idleAttempts, Config.nIdlePoll]
    · simp [InitPos.xchgs, isApp, State.idleAttempts, Config.nIdlePoll]

theorem afterBlen_onward (hp : s.pos = .initOp .blen) (hfail : s.failure = none)
    (hty : s.work.ty = some 0x02#8 ∨ s.work.ty = some 0x01#8) : Onward s (afterBlen res s) := by
  unfold afterBlen
  split
  · refine h.onward_goto hp (initOk_clean.mpr ⟨h.calls, ?_⟩) (by simp [InitPos.sels]) (by simp [InitPos.xchgs])
    rcases hty with hty | hty
    · exact ⟨_, hty, by decide, by simp [hfail]⟩
    · exact ⟨_, hty, by decide, by simp [hfail]⟩
  · exact h.onward_failEntry hp rfl rfl (.refl s) _ (by simp [InitPos.sels]) (by simp [InitPos.xchgs])

theorem afterIdlex_onward {tmr : BitVec 16} {ty pcmd : Byte} (hp : s.pos = .initOp .idlex) (hfail : s.failure = none)
    (ht : s.work.tmr = some tmr) (h1 : 1 ≤ tmr.toNat) (hmax : tmr.toNat ≤ 25000) (hty : s.work.ty = some ty)
    (hpcmd : s.work.pcmd = some pcmd)
    (hbranch : (ty = 0x02#8 ∧ pcmd = codeAcmd41) ∨ (ty = 0x01#8 ∧ pcmd = codeCmd1)) :
    Onward s (afterIdlex res tmr pcmd s) := by
  unfold afterIdlex
  obtain hturn | ⟨left, hl, ⟨hturn, hmore⟩ | hturn⟩ := pollTurn_cases res h1 <;> rw [hturn] <;> dsimp only
  · have hty' : s.work.ty = some 0x02#8 ∨ s.work.ty = some 0x01#8 := by
      rw [hty]
      exact hbranch.imp (fun hb => congrArg some hb.1) (fun hb => congrArg some hb.1)
    refine h.onward_call hp rfl (by constructor <;> rfl) rfl (by decide)
      (fun hcall => initOk_blen.mpr ⟨hcall, hfail, hty'⟩) ?_ ?_
    · simp [InitPos.sels, isApp, codeCmd16]
    · simp [InitPos.xchgs, isApp, codeCmd16]
  · have hcode : (decodedInstr (decodeCommand (pcmd &&& 0x7F#8) 0#32)).isSome = true ∧
        (isApp pcmd = true → pcmd &&& 0x7F#8 = 0x69#8) := by
      rcases hbranch with ⟨-, rfl⟩ | ⟨-, rfl⟩ <;> decide
    refine h.onward_call hp rfl (by constructor <;> rfl) hcode.1 hcode.2
      (fun hcall => initOk_idlex.mpr
        ⟨hfail, ⟨left, rfl, hmore, by omega⟩, ty, pcmd, hty, hpcmd, hcall, hbranch⟩) ?_ ?_
    · simp only [InitPos.sels, State.idleAttempts, ht, Option.elim_some]
      split <;> omega
    · simp only [InitPos.xchgs, State.idleAttempts, ht, Option.elim_some]
      split <;> omega
  · exact h.onward_failEntry (t := { s with work.tmr := some left }) hp rfl rfl (by constructor <;> rfl) _
      (by simp [InitPos.sels]) (by simp [InitPos.xchgs])

end Returns

end Sys2Proof.Machine
end

section
/-! PROOF. The events of `INITIALIZE`: each meets the invariant and pays for itself, up to the release. -/

namespace Sys2Proof.Machine

/-! ## Event counts of joined traces -/

theorem selCount_append (l m : List Event) : selCount (l ++ m) = selCount l + selCount m := by
  induction l with
  | nil => simp [selCount]
  | cons e l ih => cases e <;> simp [selCount, ih, Nat.add_right_comm]

theorem xchgCount_append (l m : List Event) : xchgCount (l ++ m) = xchgCount l + xchgCount m := by
  induction l with
  | nil => simp [xchgCount]
  | cons e l ih => cases e <;> simp [xchgCount, ih, Nat.add_right_comm]

theorem copyCount_append (l m : List Event) : copyCount (l ++ m) = copyCount l + copyCount m := by
  induction l with
  | nil => simp [copyCount]
  | cons e l ih => cases e <;> simp [copyCount, ih, Nat.add_right_comm]

theorem wrCount_append (l m : List Event) : wrCount (l ++ m) = wrCount l + wrCount m := by
  induction l with
  | nil => simp [wrCount]
  | cons e l ih => cases e <;> simp [wrCount, ih, Nat.add_right_comm]

theorem Spends.refl (s : State) : Spends [] s s :=
  ⟨rfl, by simp [selCount], by simp [xchgCount], rfl, rfl, rfl, rfl, rfl, rfl⟩

theorem Spends.trans {es fs : List Event} {s t u : State} (h : Spends es s t) (h' : Spends fs t u) :
    Spends (fs ++ es) s u where
  trace := by rw [h'.trace, h.trace, List.append_assoc]
  sels := by have := h.sels; have := h'.sels; rw [selCount_append]; omega
  xchgs := by have := h.xchgs; have := h'.xchgs; rw [xchgCount_append]; omega
  copies := by rw [copyCount_append, h.copies, h'.copies]
  writes := by rw [wrCount_append, h.writes, h'.writes]
  params := h'.params.trans h.params
  request := h'.request.trans h.request
  refused := h'.refused.trans h.refused
  results := h'.results.trans h.results

/-! ## With a command in progress -/

/-- The response of the command called at `p` is used, and the operation goes on (R163 to R171). -/
theorem initReturn_onward {s t : State} {p : InitPos} (hinv : s.inv = true) (hp : s.pos = .initOp p)
    (hc : s.calls ≠ []) (hf : DispatchFrame s t) (ht : t.calls = []) (hres : t.work.res.isSome = true) :
    ∃ u, initReturn p t = .next u ∧ Onward t u := by
  obtain ⟨hcard, -, -, hdest⟩ := inv_iff.mp hinv
  have hb : Between t := ⟨ht, by rwa [hf.cardType], by rwa [hf.dest]⟩
  have hpt : t.pos = .initOp p := hf.pos.trans hp
  have hty : t.work.ty = s.work.ty := by rw [hf.work]
  have htmr : t.work.tmr = s.work.tmr := by rw [hf.work]
  have hpcmd : t.work.pcmd = s.work.pcmd := by rw [hf.work]
  have pending (hi : initPending s = true) : initPending t = true := by
    rwa [initPending_iff, hty, hf.failure, ← initPending_iff]
  obtain ⟨res, hres⟩ := Option.isSome_iff_exists.mp hres
  have hok : initOk p s = true := initOk_of_inv hinv hp
  cases p with
  | cmd0 =>
    exact ⟨_, by rw [initReturn, hres, need_some], afterCmd0_onward hb res hpt (pending (initOk_cmd0.mp hok).2)⟩
  | cmd8 =>
    exact ⟨_, by rw [initReturn, hres, need_some], afterCmd8_onward hb res hpt (pending (initOk_cmd8.mp hok).2)⟩
  | hcs =>
    obtain ⟨-, hi, tmr, ht, h1, hmax⟩ := initOk_hcs.mp hok
    rw [← htmr] at ht
    exact ⟨_, by rw [initReturn, hres, need_some, ht, need_some],
      afterHcs_onward hb res hpt (pending hi) ht h1 hmax⟩
  | ocr =>
    exact ⟨_, by rw [initReturn, hres, need_some], afterOcr_onward hb res hpt (pending (initOk_ocr.mp hok).2)⟩
  | probe =>
    exact ⟨_, by rw [initReturn, hres, need_some], afterProbe_onward hb res hpt (pending (initOk_probe.mp hok).2)⟩
  | idlex =>
    obtain ⟨hfail, ⟨tmr, ht, h1, hmax⟩, ty, pcmd, hty', hpcmd', -, hbranch⟩ := initOk_idlex.mp hok
    rw [← htmr] at ht
    rw [← hpcmd] at hpcmd'
    exact ⟨_, by rw [initReturn, hres, need_some, ht, need_some, hpcmd', need_some],
      afterIdlex_onward hb res hpt (hf.failure.trans hfail) ht h1 hmax (hty.trans hty') hpcmd' hbranch⟩
  | blen =>
    obtain ⟨-, hfail, hty'⟩ := initOk_blen.mp hok
    rw [← hty] at hty'
    exact ⟨_, by rw [initReturn, hres, need_some], afterBlen_onward hb res hpt (hf.failure.trans hfail) hty'⟩
  | warm k => exact absurd (initOk_warm.mp hok).1 hc
  | echo k => exact absurd (initOk_echo.mp hok).1 hc
  | ocrRead k => exact absurd (initOk_ocrRead.mp hok).1 hc
  | clean => exact absurd (initOk_clean.mp hok).1 hc
  | release => exact absurd (initOk_release.mp hok).1 hc

/-- A turn of the dispatcher pays for its event. -/
theorem DispatchTurn.spends {s t : State} {p : InitPos} (h : DispatchTurn s t) (hp : s.pos = .initOp p) :
    ∃ e, Spends [e] s t := by
  obtain ⟨e, htrace, hsel, hxchg, hcopy, hwr⟩ := h.spent
  have hleft : t.idleAttempts = s.idleAttempts := by
    simp only [State.idleAttempts]
    rw [h.work]
  refine ⟨e, htrace, ?_, ?_, hcopy, hwr, h.params, h.request, h.refused, h.results⟩
  · rw [selsLeft_of_pos hp, selsLeft_of_pos (h.pos.trans hp), h.params, hleft]
    omega
  · rw [xchgsLeft_of_pos hp, xchgsLeft_of_pos (h.pos.trans hp), h.params, hleft]
    omega

/-- With commands still in progress after a turn, the invariant holds. -/
theorem DispatchTurn.inv {s t : State} (h : DispatchTurn s t) (hinv : s.inv = true) (hs : s.calls ≠ [])
    (ht : t.calls ≠ []) : t.inv = true := by
  obtain ⟨hcard, -, hok, hdest⟩ := inv_iff.mp hinv
  have hempty : t.calls.isEmpty = s.calls.isEmpty := by simp [List.isEmpty_eq_false_iff.mpr, hs, ht]
  refine inv_iff.mpr ⟨by rwa [h.cardType], h.stack, ?_, by rwa [h.dest]⟩
  rwa [h.positionOk_eq hempty (h.outermost.resolve_left ht)]

theorem operationReturn_of_call {s : State} (h : s.calls ≠ []) : operationReturn s = .next s := by
  unfold operationReturn
  split
  · rfl
  · exact absurd ‹_› h

/-- A step of `INITIALIZE` with a command in progress (R120). -/
theorem initialize_step_of_call {s : State} {p : InitPos} (hinv : s.inv = true) (hr : s.request = none)
    (hp : s.pos = .initOp p) (hc : s.calls ≠ []) : ∃ e t, step s = .next t ∧ Running t ∧ Spends [e] s t := by
  obtain ⟨c, rest, hcalls⟩ := List.exists_cons_of_ne_nil hc
  obtain ⟨t, h, hstep⟩ := step_of_call (callsOk_of_inv hinv) hr hcalls
  obtain ⟨e, hspends⟩ := h.spends hp
  have hne : p ≠ .release := by
    rintro rfl
    obtain ⟨hnil, -⟩ := initOk_release.mp (initOk_of_inv hinv hp)
    exact hc hnil
  by_cases ht : t.calls = []
  · obtain ⟨u, hu, hrun, hon⟩ := initReturn_onward hinv hp hc h.toDispatchFrame ht (h.response ht)
    refine ⟨e, u, ?_, hrun, hspends.trans hon⟩
    rw [hstep, ← hu]
    simp [operationReturn, ht, h.pos, hp]
  · exact ⟨e, t, hstep.trans (operationReturn_of_call ht), ⟨h.inv hinv hc ht, p, h.pos.trans hp, hne⟩, hspends⟩

/-! ## With no command in progress -/

/-- The positions of `INITIALIZE` with no command in progress (R28). -/
theorem initPos_of_no_call {s : State} {p : InitPos} (hok : initOk p s = true) (hc : s.calls = []) :
    (∃ k, p = .warm k) ∨ (∃ k, p = .echo k) ∨ (∃ k, p = .ocrRead k) ∨ p = .clean ∨ p = .release := by
  have calls {code : Byte} {arg : Word32} (h : calling code arg s = true) : False := calls_ne_nil_of_calling h hc
  cases p with
  | warm k => exact .inl ⟨k, rfl⟩
  | echo k => exact .inr (.inl ⟨k, rfl⟩)
  | ocrRead k => exact .inr (.inr (.inl ⟨k, rfl⟩))
  | clean => exact .inr (.inr (.inr (.inl rfl)))
  | release => exact .inr (.inr (.inr (.inr rfl)))
  | cmd0 => exact (calls (initOk_cmd0.mp hok).1).elim
  | cmd8 => exact (calls (initOk_cmd8.mp hok).1).elim
  | hcs => exact (calls (initOk_hcs.mp hok).1).elim
  | ocr => exact (calls (initOk_ocr.mp hok).1).elim
  | probe => exact (calls (initOk_probe.mp hok).1).elim
  | idlex =>
    obtain ⟨-, -, ty, pcmd, -, -, hcall, -⟩ := initOk_idlex.mp hok
    exact (calls hcall).elim
  | blen => exact (calls (initOk_blen.mp hok).1).elim

/-- Where the invariant holds with no command in progress, none has just returned to `INITIALIZE`. -/
theorem initReturn_of_ok {s : State} {p : InitPos} (hok : initOk p s = true) (hc : s.calls = []) :
    initReturn p s = .next s := by
  obtain ⟨k, rfl⟩ | ⟨k, rfl⟩ | ⟨k, rfl⟩ | rfl | rfl := initPos_of_no_call hok hc <;> rfl

theorem readOk_cmd17 {ops : ReadOperands} {s : State} : readOk ops .cmd17 s = true ↔
    windowOk ops.ofs ops.cnt = true ∧
      ∃ addr, s.work.addr = some addr ∧ calling codeCmd17 addr s = true ∧ readPending s = true := by
  simp only [readOk, Bool.and_eq_true, Option.any_eq_true]
  constructor
  · rintro ⟨hw, ⟨addr, ha, hcall⟩, hp⟩
    exact ⟨hw, addr, ha, hcall, hp⟩
  · rintro ⟨hw, addr, ha, hcall, hp⟩
    exact ⟨hw, ⟨addr, ha, hcall⟩, hp⟩

/-- Where the invariant holds with no command in progress, none has just returned to `READ_PARTIAL`. -/
theorem readReturn_of_ok {s : State} {ops : ReadOperands} {p : ReadPos} (hok : readOk ops p s = true)
    (hc : s.calls = []) : readReturn ops p s = .next s := by
  cases p with
  | cmd17 =>
    obtain ⟨-, addr, -, hcall, -⟩ := readOk_cmd17.mp hok
    exact absurd hc (calls_ne_nil_of_calling hcall)
  | token | copy | packet _ | write _ | clean | release => rfl

/-- Where the invariant holds, no return is left to resolve: the position is the point whose next event is due
(R28). -/
theorem settle_of_inv {s : State} (h : s.inv = true) : settle s = .next s := by
  obtain ⟨-, hcalls, hok, -⟩ := inv_iff.mp h
  cases hc : s.calls with
  | cons c rest => exact settle_of_call hc ((callsOk_cons hc).mp hcalls).1
  | nil =>
    rw [settle_of_no_call hc, operationReturn, hc]
    unfold positionOk at hok
    split at hok
    · simp [*]
    · simp only [*, initReturn_of_ok]
    · simp only [*, readReturn_of_ok]

/-- The event due in `INITIALIZE`, with no command in progress (R28). -/
theorem step_at_init {s t : State} {p : InitPos} (hl : paramsLegal s.params = true) (hr : s.request = none)
    (hc : s.calls = []) (hp : s.pos = .initOp p) (he : initEvent p s = .next t) (ht : t.inv = true) :
    step s = .next t := by
  have hexec : exec .hostInitialize s = .next t := by
    simp [exec, execInitialize, underLegalParams, hl, hp, hr, he]
  simp [step, fetch, hr, hc, fetchOperation, hp, hexec, settle_of_inv ht]

/-- An event of `INITIALIZE` with no command in progress, which pays for itself. -/
theorem Between.spends_event {s t : State} {p q : InitPos} {e : Event} (h : Between s) (hp : s.pos = .initOp p)
    (hq : t.pos = .initOp q) (htrace : t.trace = e :: s.trace) (hcopy : copyCount [e] = 0) (hwr : wrCount [e] = 0)
    (hm : t.params = s.params) (hreq : t.request = s.request) (href : t.refused = s.refused)
    (hres : t.results = s.results)
    (hsel : selCount [e] + (t.callSels + q.sels s.params.nWarmupDesel t.idleAttempts) ≤
      p.sels s.params.nWarmupDesel s.idleAttempts)
    (hxchg : xchgCount [e] + (t.callXchgs + q.xchgs s.params.nWarmupDesel s.params.nWarmupSel t.idleAttempts) ≤
      p.xchgs s.params.nWarmupDesel s.params.nWarmupSel s.idleAttempts) : Spends [e] s t where
  trace := htrace
  sels := by rw [selsLeft_of_pos hp, selsLeft_of_pos hq, callSels_nil h.calls, hm, Nat.zero_add]; exact hsel
  xchgs := by rw [xchgsLeft_of_pos hp, xchgsLeft_of_pos hq, callXchgs_nil h.calls, hm, Nat.zero_add]; exact hxchg
  copies := hcopy
  writes := hwr
  params := hm
  request := hreq
  refused := href
  results := hres

theorem warmSels_le (desel k : Nat) : warmSels desel k ≤ desel + 2 - k := by
  unfold warmSels
  split_ifs <;> omega

/-- The events of the warm-up: a `Sel`, which it then owes no more, or an exchange (R161). -/
theorem warmEvent_cases (k : Nat) (s : State) :
    (warmSels s.params.nWarmupDesel k = warmSels s.params.nWarmupDesel (k + 1) + 1 ∧ ∃ b, warmEvent k s = select b s) ∨
    (warmSels s.params.nWarmupDesel k = warmSels s.params.nWarmupDesel (k + 1) ∧ warmEvent k s = dummyExchange s) := by
  have hsucc : warmSels s.params.nWarmupDesel (k + 1) = if k + 1 ≤ s.params.nWarmupDesel + 1 then 1 else 0 := rfl
  rw [hsucc]
  unfold warmEvent warmSels
  by_cases h0 : k = 0
  · exact .inl ⟨by simp [h0], false, if_pos h0⟩
  · by_cases h1 : k = s.params.nWarmupDesel + 1
    · exact .inl ⟨by simp [h1], true, by rw [if_neg h0, if_pos h1]⟩
    · refine .inr ⟨?_, by rw [if_neg h0, if_neg h1]⟩
      rw [if_neg h0]
      split_ifs <;> omega

theorem isApp_codeCmd0 : isApp codeCmd0 = false := rfl

/-- Reading a byte into `BUF` leaves what was between two commands. -/
theorem Between.readBuf {s : State} (h : Between s) (k : Fin 4) : Between (readBuf k s) :=
  ⟨by simp [h.calls], by simpa using h.cardType, by simpa using h.dest⟩

/-- The warm-up pays for each of its events, and for the commands after it (R161 to R163). -/
theorem warmStep_onward {s : State} {k : Nat} (h : Between s) (hl : paramsLegal s.params = true)
    (hp : s.pos = .initOp (.warm k)) (hok : initOk (.warm k) s = true) :
    Running (warmStep k s) ∧ ∃ e, Spends [e] s (warmStep k s) := by
  obtain ⟨-, hk, hfail⟩ := initOk_warm.mp hok
  obtain ⟨⟨hdesel, hsel⟩, -⟩ : (10 ≤ s.params.nWarmupDesel ∧ 600 ≤ s.params.nWarmupSel) ∧ _ := by
    simpa only [paramsLegal, Bool.and_eq_true, decide_eq_true_eq] using hl
  have h' : Between (warmEvent k s) := ⟨by simp [h.calls], by simpa using h.cardType, by simpa using h.dest⟩
  have hle := warmSels_le s.params.nWarmupDesel k
  have hle' := warmSels_le s.params.nWarmupDesel (k + 1)
  by_cases hlt : k + 1 < s.params.nWarmupDesel + s.params.nWarmupSel + 2
  · rw [warmStep_of_lt hlt]
    have hb : Between (gotoInit (.warm (k + 1)) (warmEvent k s)) := ⟨h'.calls, h'.cardType, h'.dest⟩
    refine ⟨hb.running rfl (initOk_warm.mpr ⟨hb.calls, by simpa using hlt, by simpa using hfail⟩), ?_⟩
    obtain ⟨hsel, b, he⟩ | ⟨hxchg, he⟩ := warmEvent_cases k s
    · refine ⟨.sel b, h.spends_event hp rfl (by simp [he]) rfl rfl (by simp) (by simp) (by simp) (by simp) ?_ ?_⟩
      · simp only [callSels_nil hb.calls, InitPos.sels, selCount]
        omega
      · simp only [callXchgs_nil hb.calls, InitPos.xchgs, xchgCount]
        omega
    · refine ⟨.xchg Config.dummy (draw s).1,
        h.spends_event hp rfl (by simp [he]) rfl rfl (by simp) (by simp) (by simp) (by simp) ?_ ?_⟩
      · simp only [callSels_nil hb.calls, InitPos.sels, selCount]
        omega
      · simp only [callXchgs_nil hb.calls, InitPos.xchgs, xchgCount]
        omega
  · rw [warmStep_of_last hlt]
    have hlast : warmSels s.params.nWarmupDesel k = 0 := by
      rw [warmSels, if_neg (by omega), if_neg (by omega)]
    have he : warmEvent k s = dummyExchange s := by
      obtain ⟨hsel, -⟩ | ⟨-, he⟩ := warmEvent_cases k s
      · omega
      · exact he
    have hb : Between { warmEvent k s with work := { s.work with ty := some 0x00#8 } } :=
      ⟨h'.calls, h'.cardType, h'.dest⟩
    refine ⟨hb.running_call rfl (by decide) fun hcall => initOk_cmd0.mpr ⟨hcall, initPending_iff.mpr ⟨rfl, ?_⟩⟩,
      .xchg Config.dummy (draw s).1,
      h.spends_event hp rfl (by simp [he]) rfl rfl (by simp) (by simp) (by simp) (by simp) ?_ ?_⟩
    · simpa using hfail
    · simp only [callSels_callFromInit hb.calls, isApp_codeCmd0, InitPos.sels, selCount, Bool.false_eq_true, if_false]
      omega
    · simp only [callXchgs_callFromInit hb.calls, isApp_codeCmd0, InitPos.xchgs, xchgCount, Bool.false_eq_true,
        if_false]
      omega

/-- After the `k`-th trailing byte, one more entry of `BUF` holds a value. -/
theorem bufWritten_readBuf {s : State} {k k' : Fin 4} (hk : k'.val = k.val + 1) (h : bufWritten k s = true) :
    bufWritten k' (readBuf k s) = true := by
  refine bufWritten_iff.mpr fun j hj => ?_
  rw [readBuf_work]
  by_cases hjk : j = k
  · subst hjk
    simp
  · have hlt : j < k := by omega
    have := bufWritten_iff.mp h j hlt
    simpa [Vector.getElem_set, Ne.symm (Fin.val_ne_of_ne hjk)] using this

/-- With the last byte read, `BUF` is full. -/
theorem buf_readBuf_last {s : State} (h : bufWritten 3 s = true) (j : Fin 4) :
    ∃ b, (readBuf 3 s).work.buf[j] = some b := by
  rw [← Option.isSome_iff_exists, readBuf_work]
  by_cases hj : j = 3
  · subst hj
    simp
  · have hlt : j < 3 := by omega
    have hne : 3 ≠ j.val := by omega
    simpa [Vector.getElem_set, hne] using bufWritten_iff.mp h j hlt

/-- Reading a byte into `BUF`, and going on to `q` from the state after it, pays for the exchange. -/
theorem Between.spends_readBuf {s t : State} {p q : InitPos} {k : Fin 4} (h : Between s) (hp : s.pos = .initOp p)
    (hq : t.pos = .initOp q) (hquiet : Quiet (Machine.readBuf k s) t)
    (hsel : t.callSels + q.sels s.params.nWarmupDesel t.idleAttempts ≤ p.sels s.params.nWarmupDesel s.idleAttempts)
    (hxchg : 1 + (t.callXchgs + q.xchgs s.params.nWarmupDesel s.params.nWarmupSel t.idleAttempts) ≤
      p.xchgs s.params.nWarmupDesel s.params.nWarmupSel s.idleAttempts) :
    Spends [.xchg Config.dummy (draw s).1] s t :=
  h.spends_event hp hq (by simp [hquiet.trace]) rfl rfl (by simp [hquiet.params]) (by simp [hquiet.request])
    (by simp [hquiet.refused]) (by simp [hquiet.results]) (by simpa [selCount] using hsel)
    (by simpa [xchgCount] using hxchg)

/-- Going on from one trailing byte to the next. -/
theorem Between.onward_nextRead {s : State} {p q : InitPos} {k : Fin 4} (h : Between s) (hp : s.pos = .initOp p)
    (hok : initOk q (gotoInit q (Machine.readBuf k s)) = true)
    (hsel : ∀ desel tmr, q.sels desel tmr ≤ p.sels desel tmr)
    (hxchg : ∀ desel sel tmr, 1 + q.xchgs desel sel tmr ≤ p.xchgs desel sel tmr)
    (hne : q ≠ .release := by nofun) :
    Running (gotoInit q (Machine.readBuf k s)) ∧
      Spends [.xchg Config.dummy (draw s).1] s (gotoInit q (Machine.readBuf k s)) := by
  have hb : Between (gotoInit q (Machine.readBuf k s)) :=
    ⟨(h.readBuf k).calls, (h.readBuf k).cardType, (h.readBuf k).dest⟩
  have htmr : (gotoInit q (Machine.readBuf k s)).idleAttempts = s.idleAttempts := by simp [State.idleAttempts]
  refine ⟨hb.running rfl hok hne, h.spends_readBuf hp rfl (gotoInit_quiet ..) ?_ ?_⟩
  · rw [callSels_nil hb.calls, htmr, Nat.zero_add]
    exact hsel ..
  · rw [callXchgs_nil hb.calls, htmr, Nat.zero_add]
    exact hxchg ..

/-- One echo read; the fourth is followed by the check (R165, R166). -/
theorem echoStep_onward {s : State} {k : Fin 4} (h : Between s) (hp : s.pos = .initOp (.echo k))
    (hok : initOk (.echo k) s = true) :
    ∃ t, echoStep k s = .next t ∧ Running t ∧ Spends [.xchg Config.dummy (draw s).1] s t := by
  obtain ⟨-, hi, hbuf⟩ := initOk_echo.mp hok
  have hi' : initPending (readBuf k s) = true := by
    simpa [initPending_iff] using hi
  have more (k' : Fin 4) (hk : k'.val = k.val + 1) :
      Running (gotoInit (.echo k') (readBuf k s)) ∧
        Spends [.xchg Config.dummy (draw s).1] s (gotoInit (.echo k') (readBuf k s)) := by
    refine h.onward_nextRead hp (initOk_echo.mpr ⟨by simp [h.calls], hi', bufWritten_readBuf hk hbuf⟩)
      (fun _ _ => le_rfl) fun _ _ _ => ?_
    simp only [InitPos.xchgs]
    omega
  match k with
  | 0 => exact ⟨_, rfl, more 1 rfl⟩
  | 1 => exact ⟨_, rfl, more 2 rfl⟩
  | 2 => exact ⟨_, rfl, more 3 rfl⟩
  | 3 =>
    obtain ⟨b0, h0⟩ := buf_readBuf_last hbuf 0
    obtain ⟨b1, h1⟩ := buf_readBuf_last hbuf 1
    obtain ⟨b2, h2⟩ := buf_readBuf_last hbuf 2
    obtain ⟨b3, h3⟩ := buf_readBuf_last hbuf 3
    have hstep : echoStep 3 s =
        if echoOk b2 b3 then
          .next (callFromInit .hcs codeAcmd41 Config.hcsArg { readBuf 3 s with work.tmr := some Config.nIdlePoll })
        else .next (failEntry (.echo b0 b1 b2 b3) (readBuf 3 s)) := by
      change echoCheck (readBuf 3 s) = _
      unfold echoCheck
      rw [show (readBuf 3 s).work.buf[0] = some b0 from h0, show (readBuf 3 s).work.buf[1] = some b1 from h1,
        show (readBuf 3 s).work.buf[2] = some b2 from h2, show (readBuf 3 s).work.buf[3] = some b3 from h3]
      rfl
    rw [hstep]
    split
    · have hb : Between { readBuf 3 s with work.tmr := some Config.nIdlePoll } :=
        ⟨(h.readBuf 3).calls, (h.readBuf 3).cardType, (h.readBuf 3).dest⟩
      refine ⟨_, rfl, hb.running_call rfl (by decide) fun hcall => initOk_hcs.mpr
          ⟨hcall, hi', Config.nIdlePoll, rfl, by decide, by decide⟩,
        h.spends_readBuf (k := 3) hp rfl (by constructor <;> rfl) ?_ ?_⟩
      · rw [callSels_callFromInit hb.calls]
        simp [InitPos.sels, isApp, codeAcmd41, State.idleAttempts, Config.nIdlePoll]
      · rw [callXchgs_callFromInit hb.calls]
        simp [InitPos.xchgs, isApp, codeAcmd41, State.idleAttempts, Config.nIdlePoll]
    · have hpos : (readBuf 3 s).pos = .initOp (.echo 3) := by simpa using hp
      have hcalls : (failEntry (.echo b0 b1 b2 b3) (readBuf 3 s)).calls = [] := by simp [h.calls]
      refine ⟨_, rfl, (h.readBuf 3).running_failEntry hpos _,
        h.spends_readBuf hp (q := .clean) (by rw [failEntry_initOp _ _ _ hpos]) (failEntry_quiet ..) ?_ ?_⟩
      · simp [callSels_nil hcalls, InitPos.sels]
      · simp [callXchgs_nil hcalls, InitPos.xchgs]

/-- One OCR read; the fourth is followed by the classifier (R167, R168). -/
theorem ocrStep_onward {s : State} {k : Fin 4} (h : Between s) (hp : s.pos = .initOp (.ocrRead k))
    (hok : initOk (.ocrRead k) s = true) :
    ∃ t, ocrStep k s = .next t ∧ Running t ∧ Spends [.xchg Config.dummy (draw s).1] s t := by
  obtain ⟨-, hi, hbuf⟩ := initOk_ocrRead.mp hok
  have hi' : initPending (readBuf k s) = true := by
    simpa [initPending_iff] using hi
  have more (k' : Fin 4) (hk : k'.val = k.val + 1) :
      Running (gotoInit (.ocrRead k') (readBuf k s)) ∧
        Spends [.xchg Config.dummy (draw s).1] s (gotoInit (.ocrRead k') (readBuf k s)) := by
    refine h.onward_nextRead hp (initOk_ocrRead.mpr ⟨by simp [h.calls], hi', bufWritten_readBuf hk hbuf⟩)
      (fun _ _ => le_rfl) fun _ _ _ => ?_
    simp only [InitPos.xchgs]
    omega
  match k with
  | 0 => exact ⟨_, rfl, more 1 rfl⟩
  | 1 => exact ⟨_, rfl, more 2 rfl⟩
  | 2 => exact ⟨_, rfl, more 3 rfl⟩
  | 3 =>
    obtain ⟨b0, h0⟩ := buf_readBuf_last hbuf 0
    have hstep : ocrStep 3 s = .next (gotoInit .clean { readBuf 3 s with work.ty := some (classifyOcr b0) }) := by
      change classifySd2 (readBuf 3 s) = _
      rw [classifySd2, show (readBuf 3 s).work.buf[0] = some b0 from h0]
      rfl
    have hb : Between (gotoInit .clean { readBuf 3 s with work.ty := some (classifyOcr b0) }) :=
      ⟨(h.readBuf 3).calls, (h.readBuf 3).cardType, (h.readBuf 3).dest⟩
    have hfail : s.failure = none := (initPending_iff.mp hi).2
    have hty : cardTypes.contains (classifyOcr b0) = true ∧ classifyOcr b0 ≠ 0x00#8 := by
      unfold classifyOcr
      split <;> decide
    refine ⟨_, hstep, hb.running rfl (initOk_clean.mpr ⟨hb.calls, _, rfl, hty.1, ?_⟩),
      h.spends_readBuf (k := 3) hp rfl (by constructor <;> rfl) ?_ ?_⟩
    · simp [hfail, hty.2]
    · rw [callSels_nil hb.calls]
      simp [InitPos.sels]
    · rw [callXchgs_nil hb.calls]
      simp [InitPos.xchgs]

theorem Between.of_inv {s : State} (h : s.inv = true) (hc : s.calls = []) : Between s := by
  obtain ⟨hcard, -, -, hdest⟩ := inv_iff.mp h
  exact ⟨hc, hcard, hdest⟩

/-- An event of `INITIALIZE` before the cleanup, with no command in progress. -/
theorem initEvent_onward {s : State} {p : InitPos} (hinv : s.inv = true) (hl : paramsLegal s.params = true)
    (hc : s.calls = []) (hp : s.pos = .initOp p) (hne : p ≠ .clean) (hne' : p ≠ .release) :
    ∃ e t, initEvent p s = .next t ∧ Running t ∧ Spends [e] s t := by
  have h : Between s := .of_inv hinv hc
  have hok : initOk p s = true := initOk_of_inv hinv hp
  obtain ⟨k, rfl⟩ | ⟨k, rfl⟩ | ⟨k, rfl⟩ | rfl | rfl := initPos_of_no_call hok hc
  · obtain ⟨hrun, e, hs⟩ := warmStep_onward h hl hp hok
    exact ⟨e, _, rfl, hrun, hs⟩
  · exact ⟨_, echoStep_onward h hp hok⟩
  · exact ⟨_, ocrStep_onward h hp hok⟩
  · exact absurd rfl hne
  · exact absurd rfl hne'

/-- Every step of a running `INITIALIZE` before the cleanup goes on with it and pays for one event. -/
theorem initialize_step {s : State} {p : InitPos} (hinv : s.inv = true) (hl : paramsLegal s.params = true)
    (hr : s.request = none) (hp : s.pos = .initOp p) (hne : p ≠ .clean) (hne' : p ≠ .release) :
    ∃ e t, step s = .next t ∧ Running t ∧ Spends [e] s t := by
  by_cases hc : s.calls = []
  · obtain ⟨e, t, he, hrun, hs⟩ := initEvent_onward hinv hl hc hp hne hne'
    exact ⟨e, t, step_at_init hl hr hc hp he hrun.inv, hrun, hs⟩
  · exact initialize_step_of_call hinv hr hp hc

/-- The cleanup stores the classification, which the release then returns (R172). -/
theorem initialize_cleanup {s : State} (hinv : s.inv = true) (hl : paramsLegal s.params = true)
    (hr : s.request = none) (hp : s.pos = .initOp .clean) :
    ∃ ty, s.calls = [] ∧ step s = .next (gotoInit .release (select false { s with cardType := ty })) ∧
      (gotoInit .release (select false { s with cardType := ty })).inv = true := by
  obtain ⟨hc, ty, hty, hmem, hlabel⟩ := initOk_clean.mp (initOk_of_inv hinv hp)
  have h : Between s := .of_inv hinv hc
  have hb : Between (gotoInit .release (select false { s with cardType := ty })) := ⟨hc, hmem, h.dest⟩
  have hend := hb.inv_init rfl (initOk_release.mpr ⟨hb.calls, hty, hlabel⟩)
  exact ⟨ty, hc, step_at_init hl hr hc hp (by rw [initEvent, initClean, hty, need_some]) hend, hend⟩

/-- The release ends `INITIALIZE` with the `STATUS` of the classification stored (R172, R173). -/
theorem initialize_release {s : State} (hinv : s.inv = true) (hl : paramsLegal s.params = true)
    (hr : s.request = none) (hp : s.pos = .initOp .release) :
    s.calls = [] ∧ (s.failure.isSome = true ↔ s.cardType = 0x00#8) ∧
      step s = .next (returnToHost (.initialized (statusOf s.cardType)) (dummyExchange s)) ∧
      (returnToHost (.initialized (statusOf s.cardType)) (dummyExchange s)).inv = true := by
  obtain ⟨hc, hty, hlabel⟩ := initOk_release.mp (initOk_of_inv hinv hp)
  have h : Between s := .of_inv hinv hc
  have hb : Between (returnToHost (.initialized (statusOf s.cardType)) (dummyExchange s)) :=
    ⟨by simp [h.calls], by simpa using h.cardType, by simpa using h.dest⟩
  have hend := hb.inv rfl
  exact ⟨hc, hlabel, step_at_init hl hr hc hp (by rw [initEvent, initRelease, hty, need_some]) hend, hend⟩

end Sys2Proof.Machine
end

section
/-! PROOF. The events of `READ_PARTIAL` meet the invariant, and so does every step of the machine. -/

namespace Sys2Proof.Machine

/-! ## What the invariant says at each position of `READ_PARTIAL` -/

theorem readPending_iff {s : State} : readPending s = true ↔ s.work.result = some .error ∧ s.failure = none := by
  simp [readPending]

/-- A label is recorded exactly with the result `ERROR` (R237). -/
theorem readDecided_iff {s : State} :
    readDecided s = true ↔ ∃ r, s.work.result = some r ∧ (s.failure.isSome = true ↔ r = .error) := by
  have hlabel (r : ReadResult) :
      (s.failure.isSome == (r == .error)) = true ↔ (s.failure.isSome = true ↔ r = .error) := by
    rw [beq_iff_eq, Bool.eq_iff_iff, beq_iff_eq]
  simp only [readDecided, Option.any_eq_true, hlabel]

theorem dWritten_iff {k : Nat} {s : State} :
    dWritten k s = true ↔ ∀ j, j < k → (entry s.work.d j).isSome = true := by
  simp [dWritten]

section Positions

variable {s : State} {ops : ReadOperands}

theorem readOk_token : readOk ops .token s = true ↔
    windowOk ops.ofs ops.cnt = true ∧ s.calls = [] ∧ readPending s = true ∧
      ∃ bc, s.work.bc = some bc ∧ 1 ≤ bc.toNat ∧ bc.toNat ≤ 30000 := by
  simp only [readOk, Bool.and_eq_true, List.isEmpty_iff, between_iff, and_assoc]

theorem readOk_copy : readOk ops .copy s = true ↔
    windowOk ops.ofs ops.cnt = true ∧ s.calls = [] ∧ readPending s = true ∧ s.params.copyMode = .delegated := by
  simp only [readOk, Bool.and_eq_true, List.isEmpty_iff, beq_iff_eq, and_assoc]

theorem readOk_packet {j : Fin 514} : readOk ops (.packet j) s = true ↔
    windowOk ops.ofs ops.cnt = true ∧ s.calls = [] ∧ readPending s = true ∧ s.params.copyMode = .inlined ∧
      dWritten j.val s = true := by
  simp only [readOk, Bool.and_eq_true, List.isEmpty_iff, beq_iff_eq, and_assoc]

theorem readOk_write {j : Fin 514} : readOk ops (.write j) s = true ↔
    windowOk ops.ofs ops.cnt = true ∧ s.calls = [] ∧ readPending s = true ∧ s.params.copyMode = .inlined ∧
      dWritten (j.val + 1) s = true ∧ inWindow ops.ofs ops.cnt j.val = true := by
  simp only [readOk, Bool.and_eq_true, List.isEmpty_iff, beq_iff_eq, and_assoc]

theorem readOk_clean : readOk ops .clean s = true ↔
    windowOk ops.ofs ops.cnt = true ∧ s.calls = [] ∧ readDecided s = true := by
  simp only [readOk, Bool.and_eq_true, List.isEmpty_iff]

theorem readOk_release : readOk ops .release s = true ↔
    windowOk ops.ofs ops.cnt = true ∧ s.calls = [] ∧ readDecided s = true := by
  simp only [readOk, Bool.and_eq_true, List.isEmpty_iff]

theorem Between.inv_read {p : ReadPos} (h : Between s) (hp : s.pos = .readOp ops p) (hok : readOk ops p s = true) :
    s.inv = true :=
  h.inv (by simpa [positionOk, hp] using hok)

/-- The failure entry of `READ_PARTIAL` meets the invariant (R233). -/
theorem Between.inv_read_failEntry {p : ReadPos} (h : Between s) (hp : s.pos = .readOp ops p)
    (hw : windowOk ops.ofs ops.cnt = true) (f : Failure) : (failEntry f s).inv = true := by
  rw [failEntry_readOp f s ops p hp]
  exact Between.inv_read (p := .clean) ⟨h.calls, h.cardType, h.dest⟩ rfl
    (readOk_clean.mpr ⟨hw, h.calls, readDecided_iff.mpr ⟨.error, rfl, by simp⟩⟩)

/-! ## Events -/

/-- After `CMD17` (R203, R204). -/
theorem afterCmd17_inv (h : Between s) (hp : s.pos = .readOp ops .cmd17) (hw : windowOk ops.ofs ops.cnt = true)
    (hi : readPending s = true) (res : Byte) (addr : Word32) : (afterCmd17 ops res addr s).inv = true := by
  unfold afterCmd17
  split
  · exact Between.inv_read (p := .token) ⟨h.calls, h.cardType, h.dest⟩ rfl
      (readOk_token.mpr ⟨hw, h.calls, hi, Config.nTokenPoll, rfl, by decide, by decide⟩)
  · exact h.inv_read_failEntry hp hw _

/-- One token read (R204). -/
theorem tokenStep_inv (h : Between s) (hp : s.pos = .readOp ops .token) (hok : readOk ops .token s = true) :
    ∃ t, tokenStep ops s = .next t ∧ t.inv = true := by
  obtain ⟨hw, -, hi, bc, hbc, h1, hmax⟩ := readOk_token.mp hok
  have hb : Between (tokenRead bc s) :=
    ⟨by simp [tokenRead, h.calls], by simpa [tokenRead] using h.cardType, by simpa [tokenRead] using h.dest⟩
  have hpos : (tokenRead bc s).pos = .readOp ops .token := by simpa [tokenRead] using hp
  have hi' : readPending (tokenRead bc s) = true := by simpa [readPending_iff, tokenRead] using hi
  refine ⟨_, tokenStep_of_some ops hbc, ?_⟩
  split
  · unfold tokenDecide
    split
    · have hb' (p : ReadPos) : Between (gotoRead ops p (tokenRead bc s)) := ⟨hb.calls, hb.cardType, hb.dest⟩
      cases hmode : (tokenRead bc s).params.copyMode with
      | delegated => exact (hb' .copy).inv_read rfl (readOk_copy.mpr ⟨hw, hb.calls, hi', hmode⟩)
      | inlined =>
        exact (hb' (.packet 0)).inv_read rfl
          (readOk_packet.mpr ⟨hw, hb.calls, hi', hmode, dWritten_iff.mpr fun j hj => absurd hj (Nat.not_lt_zero j)⟩)
    · exact hb.inv_read_failEntry hpos hw _
    · exact hb.inv_read_failEntry hpos hw _
  · rename_i hend
    have hne : bc - 1#16 ≠ 0#16 := fun h0 => hend (by simp [tokenEnds, h0])
    exact hb.inv_read hpos
      (readOk_token.mpr ⟨hw, hb.calls, hi', bc - 1#16, rfl, by bv_omega, by bv_omega⟩)

/-- The delegated copy (R205). -/
theorem copyStep_inv (h : Between s) (hok : readOk ops .copy s = true) : (copyStep ops s).inv = true := by
  obtain ⟨hw, -, hi, -⟩ := readOk_copy.mp hok
  have hb : Between (copyStep ops s) := by
    refine ⟨by simp [copyStep, h.calls], by simpa [copyStep] using h.cardType, ?_⟩
    exact Memory.wf_writeList _ _ _ (by simpa using h.dest)
  refine hb.inv_read rfl (readOk_clean.mpr ⟨hw, hb.calls, readDecided_iff.mpr ⟨.ok, rfl, ?_⟩⟩)
  simp [copyStep, (readPending_iff.mp hi).2]

/-- Entries that all hold a value give a list of bytes. -/
theorem entries_of_isSome {d : List (Option Byte)} {start count : Nat}
    (h : ∀ j, j < start + count → (entry d j).isSome = true) : ∃ bytes, entries d start count = some bytes := by
  induction count generalizing start with
  | zero => exact ⟨[], rfl⟩
  | succ count ih =>
    obtain ⟨v, hv⟩ := Option.isSome_iff_exists.mp (h start (by omega))
    obtain ⟨bytes, hb⟩ := ih (start := start + 1) fun j hj => h j (by omega)
    refine ⟨v :: bytes, ?_⟩
    unfold entries at hb ⊢
    simp [List.range'_succ, hv, hb]

/-- The CRC-16 check, with the whole packet read (R208). -/
theorem crcCheck_inv (h : Between s) (hp : s.pos = .readOp ops .clean) (hw : windowOk ops.ofs ops.cnt = true)
    (hd : readDecided s = true) (hall : dWritten 514 s = true) : ∃ t, crcCheck s = .next t ∧ t.inv = true := by
  have hinv : s.inv = true := h.inv_read hp (readOk_clean.mpr ⟨hw, h.calls, hd⟩)
  rw [dWritten_iff] at hall
  obtain ⟨bytes, hbytes⟩ := entries_of_isSome (d := s.work.d) (start := 0) (count := 512) fun j hj => hall j (by omega)
  obtain ⟨hi, hhi⟩ := Option.isSome_iff_exists.mp (hall 512 (by omega))
  obtain ⟨lo, hlo⟩ := Option.isSome_iff_exists.mp (hall 513 (by omega))
  unfold crcCheck
  rw [hbytes, hhi, hlo]
  simp only [need_some]
  split
  · split
    · exact ⟨s, rfl, hinv⟩
    · exact ⟨_, rfl, h.inv_read_failEntry hp hw _⟩
  · exact ⟨s, rfl, hinv⟩

/-- The next byte of the packet, or the end of the copy (R207, R208). -/
theorem nextPacket_inv {j : Fin 514} (h : Between s) (hw : windowOk ops.ofs ops.cnt = true)
    (hi : readPending s = true) (hm : s.params.copyMode = .inlined) (hd : dWritten (j.val + 1) s = true) :
    ∃ t, nextPacket ops j s = .next t ∧ t.inv = true := by
  unfold nextPacket
  split
  · rename_i hlt
    exact ⟨_, rfl, Between.inv_read (p := .packet ⟨j.val + 1, hlt⟩) ⟨h.calls, h.cardType, h.dest⟩ rfl
      (readOk_packet.mpr ⟨hw, h.calls, hi, hm, hd⟩)⟩
  · have hlast : j.val + 1 = 514 := by omega
    rw [hlast] at hd
    exact crcCheck_inv (ops := ops) ⟨h.calls, h.cardType, h.dest⟩ rfl hw
      (readDecided_iff.mpr ⟨.ok, rfl, by simp [(readPending_iff.mp hi).2]⟩) hd

/-- One exchange of the inline copy (R207). -/
theorem packetStep_inv {j : Fin 514} (h : Between s) (hok : readOk ops (.packet j) s = true) :
    ∃ t, packetStep ops j s = .next t ∧ t.inv = true := by
  obtain ⟨hw, -, hi, hm, hd⟩ := readOk_packet.mp hok
  have hb : Between (packetRead j s) :=
    ⟨by simp [packetRead, h.calls], by simpa [packetRead] using h.cardType, by simpa [packetRead] using h.dest⟩
  have hi' : readPending (packetRead j s) = true := by simpa [readPending_iff, packetRead] using hi
  have hm' : (packetRead j s).params.copyMode = .inlined := by simpa [packetRead] using hm
  have hd' : dWritten (j.val + 1) (packetRead j s) = true := by
    refine dWritten_iff.mpr fun i hlt => ?_
    by_cases hij : i = j.val
    · simp [packetRead, hij]
    · have := dWritten_iff.mp hd i (by omega)
      simpa [packetRead, entry_setEntry_other _ _ _ _ hij] using this
  rw [packetStep_eq]
  split
  · rename_i hin
    exact ⟨_, rfl, Between.inv_read (p := .write j) ⟨hb.calls, hb.cardType, hb.dest⟩ rfl
      (readOk_write.mpr ⟨hw, hb.calls, hi', hm', hd', hin⟩)⟩
  · exact nextPacket_inv hb hw hi' hm' hd'

/-- One write of the inline copy (R207). -/
theorem writeStep_inv {j : Fin 514} (h : Between s) (hok : readOk ops (.write j) s = true) :
    ∃ t, writeStep ops j s = .next t ∧ t.inv = true := by
  obtain ⟨hw, -, hi, hm, hd, -⟩ := readOk_write.mp hok
  obtain ⟨v, hv⟩ := Option.isSome_iff_exists.mp (dWritten_iff.mp hd j.val (by omega))
  rw [writeStep, hv, need_some]
  exact nextPacket_inv ⟨h.calls, h.cardType, Memory.wf_write _ _ _ h.dest⟩ hw hi hm hd

/-- The end of a read (R209, R211). -/
theorem readRelease_inv (h : Between s) (hok : readOk ops .release s = true) :
    ∃ t, readRelease ops s = .next t ∧ t.inv = true := by
  obtain ⟨-, -, hd⟩ := readOk_release.mp hok
  obtain ⟨r, hr, -⟩ := readDecided_iff.mp hd
  refine ⟨_, by rw [readRelease, hr, need_some], ?_⟩
  have hdest : (destAfter ops r (dummyExchange s)).dest.wf = true := by
    cases r with
    | ok => simpa [destAfter] using h.dest
    | error => exact Memory.wf_writeList _ _ _ (by simpa using h.dest)
  exact Between.inv ⟨by simp [h.calls], by simpa using h.cardType, hdest⟩ rfl

/-- An event of `READ_PARTIAL` with no command in progress meets the invariant (R200). -/
theorem readEvent_inv {p : ReadPos} (hinv : s.inv = true) (hc : s.calls = []) (hp : s.pos = .readOp ops p) :
    ∃ t, readEvent ops p s = .next t ∧ t.inv = true := by
  have h : Between s := .of_inv hinv hc
  have hok : readOk ops p s = true := readOk_of_inv hinv hp
  cases p with
  | cmd17 =>
    obtain ⟨-, addr, -, hcall, -⟩ := readOk_cmd17.mp hok
    exact absurd hc (calls_ne_nil_of_calling hcall)
  | token => exact tokenStep_inv h hp hok
  | copy => exact ⟨_, rfl, copyStep_inv h hok⟩
  | packet j => exact packetStep_inv h hok
  | write j => exact writeStep_inv h hok
  | clean =>
    obtain ⟨hw, -, hd⟩ := readOk_clean.mp hok
    exact ⟨_, rfl, Between.inv_read (p := .release) ⟨h.calls, h.cardType, h.dest⟩ rfl
      (readOk_release.mpr ⟨hw, h.calls, hd⟩)⟩
  | release => exact readRelease_inv h hok

end Positions

end Sys2Proof.Machine
end

section
/-! PROOF. Every step keeps the invariant, and none stops in a legal configuration. -/

namespace Sys2Proof.Machine

/-! ## Steps without a request -/

/-- After a turn of the dispatcher the operation goes on, and meets the invariant (R163 to R171, R203). -/
theorem turn_keeps_inv {s t : State} (hinv : s.inv = true) (hc : s.calls ≠ []) (h : DispatchTurn s t) :
    ∃ u, operationReturn t = .next u ∧ u.inv = true := by
  by_cases ht : t.calls = []
  · obtain ⟨hcard, -, -, hdest⟩ := inv_iff.mp hinv
    have hb : Between t := ⟨ht, by rwa [h.cardType], by rwa [h.dest]⟩
    cases hp : s.pos with
    | idle =>
      have hpt : t.pos = .idle := h.pos.trans hp
      exact ⟨t, by simp [operationReturn, ht, hpt], hb.inv (by simp [positionOk, hpt])⟩
    | initOp p =>
      obtain ⟨u, hu, hrun, -⟩ := initReturn_onward hinv hp hc h.toDispatchFrame ht (h.response ht)
      exact ⟨u, by simp [operationReturn, ht, h.pos, hp, hu], hrun.inv⟩
    | readOp ops p =>
      have hpt : t.pos = .readOp ops p := h.pos.trans hp
      have hok : readOk ops p s = true := readOk_of_inv hinv hp
      cases p with
      | cmd17 =>
        obtain ⟨hw, addr, haddr, -, hi⟩ := readOk_cmd17.mp hok
        obtain ⟨res, hres⟩ := Option.isSome_iff_exists.mp (h.response ht)
        have haddr' : t.work.addr = some addr := by rw [h.work]; exact haddr
        have hresult : t.work.result = s.work.result := by rw [h.work]
        have hi' : readPending t = true := by rwa [readPending_iff, hresult, h.failure, ← readPending_iff]
        exact ⟨_, by simp [operationReturn, ht, hpt, readReturn, hres, haddr'],
          afterCmd17_inv hb hpt hw hi' res addr⟩
      | token => exact absurd (readOk_token.mp hok).2.1 hc
      | copy => exact absurd (readOk_copy.mp hok).2.1 hc
      | packet j => exact absurd (readOk_packet.mp hok).2.1 hc
      | write j => exact absurd (readOk_write.mp hok).2.1 hc
      | clean => exact absurd (readOk_clean.mp hok).2.1 hc
      | release => exact absurd (readOk_release.mp hok).2.1 hc
  · exact ⟨t, operationReturn_of_call ht, h.inv hinv hc ht⟩

theorem step_inv_of_call {s : State} (hinv : s.inv = true) (hr : s.request = none) (hc : s.calls ≠ []) :
    ∃ t, step s = .next t ∧ t.inv = true := by
  obtain ⟨c, rest, hcalls⟩ := List.exists_cons_of_ne_nil hc
  obtain ⟨t, h, hstep⟩ := step_of_call (callsOk_of_inv hinv) hr hcalls
  obtain ⟨u, hu, hi⟩ := turn_keeps_inv hinv hc h
  exact ⟨u, hstep.trans hu, hi⟩

theorem step_inv_of_init {s : State} {p : InitPos} (hinv : s.inv = true) (hl : paramsLegal s.params = true)
    (hr : s.request = none) (hp : s.pos = .initOp p) : ∃ t, step s = .next t ∧ t.inv = true := by
  by_cases hclean : p = .clean
  · subst hclean
    obtain ⟨ty, -, hstep, hi⟩ := initialize_cleanup hinv hl hr hp
    exact ⟨_, hstep, hi⟩
  · by_cases hrelease : p = .release
    · subst hrelease
      obtain ⟨-, -, hstep, hi⟩ := initialize_release hinv hl hr hp
      exact ⟨_, hstep, hi⟩
    · obtain ⟨-, t, hstep, hrun, -⟩ := initialize_step hinv hl hr hp hclean hrelease
      exact ⟨t, hstep, hrun.inv⟩

theorem step_inv_of_read {s : State} {ops : ReadOperands} {p : ReadPos} (hinv : s.inv = true)
    (hl : paramsLegal s.params = true) (hr : s.request = none) (hc : s.calls = []) (hp : s.pos = .readOp ops p) :
    ∃ t, step s = .next t ∧ t.inv = true := by
  obtain ⟨t, he, hi⟩ := readEvent_inv hinv hc hp
  have hexec : exec (.readPartial ops.dst ops.blk ops.ofs ops.cnt) s = .next t := by
    simp [exec, execReadPartial, underLegalParams, hl, hp, hr, he]
  exact ⟨t, by simp [step, fetch, hr, hc, fetchOperation, hp, hexec, settle_of_inv hi], hi⟩

/-! ## Requests -/

theorem refuseRequest_inv {s : State} (h : s.inv = true) : (refuseRequest s).inv = true := h

/-- A request is one of the two operations, or reserved (R96). -/
theorem decodeRequest_cases {r : Request} {i : Instr} (h : decodeRequest r = .ok i) :
    i = .hostInitialize ∨ i = .readPartial r.dst r.blk r.ofs r.cnt := by
  unfold decodeRequest at h
  split_ifs at h
  · cases h
    exact .inl rfl
  · cases h
    exact .inr rfl

theorem step_of_request {s : State} {r : Request} {i : Instr} (hr : s.request = some r)
    (hi : decodeRequest r = .ok i) : step s = andThen (exec i s) settle := by
  simp [step, fetch, hr, fetchRequest, hi]

/-- A request of a reserved `OP` is refused in one step (R96). -/
theorem step_of_reserved {s : State} {r : Request} {e : DecodeError} (hr : s.request = some r)
    (he : decodeRequest r = .error e) : step s = .next (refuseRequest s) := by
  simp [step, fetch, hr, fetchRequest, he]

/-- An instruction that refuses its request refuses it in one step. -/
theorem step_of_refused {s : State} {r : Request} {i : Instr} (hinv : s.inv = true) (hr : s.request = some r)
    (hi : decodeRequest r = .ok i) (he : exec i s = .next (refuseRequest s)) : step s = .next (refuseRequest s) := by
  rw [step_of_request hr hi, he, andThen_next, settle_of_inv (refuseRequest_inv hinv)]

/-- At `IDLE` an `INITIALIZE` is accepted (R29). -/
theorem exec_initialize_idle {s : State} (hp : s.pos = .idle) (hc : s.calls = []) (hl : paramsLegal s.params = true) :
    exec .hostInitialize s = .next (gotoInit (.warm 1) (select false (acceptRequest s))) := by
  simp only [exec, execInitialize, underLegalParams, hl, if_true, hp, hc, acceptInit_of_legal hl]

/-- At `IDLE` a read is accepted or refused by its window (R29, R201). -/
theorem exec_read_idle {s : State} (hp : s.pos = .idle) (hc : s.calls = []) (hl : paramsLegal s.params = true)
    (dst : Handle) (blk : Word32) (ofs cnt : BitVec 10) :
    exec (.readPartial dst blk ofs cnt) s = acceptRead ⟨dst, blk, ofs, cnt⟩ s := by
  simp only [exec, execReadPartial, underLegalParams, hl, if_true, hp, hc]

/-- While the core is busy an offered operation is refused (R29, R30). -/
theorem exec_busy {s : State} {r : Request} {i : Instr} (hl : paramsLegal s.params = true) (hb : busy s = true)
    (hr : s.request = some r) (hi : decodeRequest r = .ok i) : exec i s = .next (refuseRequest s) := by
  have hbusy : s.pos = .idle → s.calls ≠ [] := by
    simpa [busy, imp_iff_not_or] using hb
  rcases decodeRequest_cases hi with rfl | rfl
  · simp only [exec, execInitialize, underLegalParams, hl, if_true]
    split
    · rw [if_neg (hbusy ‹_›)]
    · rw [if_neg (by simp [hr])]
    · rfl
  · simp only [exec, execReadPartial, underLegalParams, hl, if_true]
    split
    · rw [if_neg (hbusy ‹_›)]
    · rfl
    · rw [if_neg (by simp [hr])]

/-- Settles O45: the instruction refuses, and the invariant leaves no return to resolve. -/
theorem requestWhileBusyIsRefused : Obligations.RequestWhileBusyIsRefused := by
  intro s r hinv hl hb hr
  cases hi : decodeRequest r with
  | ok i => exact step_of_refused hinv hr hi (exec_busy hl hb hr hi)
  | error e => exact step_of_reserved hr hi

/-- An accepted `INITIALIZE` meets the invariant (R160, R161). -/
theorem acceptInit_running {s : State} (hinv : s.inv = true) (hl : paramsLegal s.params = true) (hc : s.calls = []) :
    Running (gotoInit (.warm 1) (select false (acceptRequest s))) := by
  obtain ⟨⟨hdesel, hsel⟩, -⟩ : (10 ≤ s.params.nWarmupDesel ∧ 600 ≤ s.params.nWarmupSel) ∧ _ := by
    simpa only [paramsLegal, Bool.and_eq_true, decide_eq_true_eq] using hl
  have h : Between s := .of_inv hinv hc
  have hlt : 1 < s.params.nWarmupDesel + s.params.nWarmupSel + 2 := by omega
  exact Between.running (p := .warm 1) ⟨h.calls, h.cardType, h.dest⟩ rfl (initOk_warm.mpr ⟨h.calls, hlt, rfl⟩)

/-- An accepted `READ_PARTIAL`, its read command due, meets the invariant (R200, R202). -/
theorem startRead_inv {s : State} {ops : ReadOperands} (hinv : s.inv = true) (hc : s.calls = [])
    (hw : windowOk ops.ofs ops.cnt = true) : (startRead ops s).inv = true := by
  have h : Between s := .of_inv hinv hc
  refine inv_iff.mpr ⟨h.cardType, ?_, ?_, h.dest⟩
  · exact callsOk_enterCall (s := gotoRead ops .cmd17 _) hc rfl (by decide)
  · exact readOk_cmd17.mpr ⟨hw, _, rfl, calling_enterCall (s := gotoRead ops .cmd17 _) hc, rfl⟩

/-- Accepting a read makes the first event of its read command (R200). -/
theorem acceptRead_inv {s : State} {ops : ReadOperands} (hinv : s.inv = true) (hc : s.calls = []) :
    ∃ t, andThen (acceptRead ops s) settle = .next t ∧ t.inv = true := by
  unfold acceptRead
  split
  · rename_i hw
    have hstart := startRead_inv hinv hc hw
    have hcall := startRead_calls ops s
    obtain ⟨u, t, hu, ht, h⟩ := dispatcher_turn (callsOk_of_inv hstart) hcall
    obtain ⟨v, hv, hi⟩ := turn_keeps_inv hstart (by simp) h
    exact ⟨v, by simp only [hu, andThen_next, settle, ht, hv], hi⟩
  · exact ⟨_, settle_of_inv (refuseRequest_inv hinv), refuseRequest_inv hinv⟩

theorem step_inv_of_request {s : State} {r : Request} {i : Instr} (hinv : s.inv = true)
    (hl : paramsLegal s.params = true) (hr : s.request = some r) (hi : decodeRequest r = .ok i) :
    ∃ t, step s = .next t ∧ t.inv = true := by
  cases hb : busy s with
  | true => exact ⟨_, step_of_refused hinv hr hi (exec_busy hl hb hr hi), refuseRequest_inv hinv⟩
  | false =>
    obtain ⟨hp, hc⟩ : s.pos = .idle ∧ s.calls = [] := by simpa [busy] using hb
    rw [step_of_request hr hi]
    rcases decodeRequest_cases hi with rfl | rfl
    · have hrun := acceptInit_running hinv hl hc
      exact ⟨_, by rw [exec_initialize_idle hp hc hl, andThen_next, settle_of_inv hrun.inv], hrun.inv⟩
    · rw [exec_read_idle hp hc hl]
      exact acceptRead_inv hinv hc

/-! ## Every step -/

/-- An operation in a configuration the spec does not allow is refused by name (R161, R208). -/
theorem andThen_exec_illegal {s : State} {i : Instr} {f : State → Out} (hl : paramsLegal s.params = false)
    (hi : i = .hostInitialize ∨ ∃ dst blk ofs cnt, i = .readPartial dst blk ofs cnt) :
    andThen (exec i s) f = .refused .illegalConfig := by
  rcases hi with rfl | ⟨dst, blk, ofs, cnt, rfl⟩
  · simp [exec, execInitialize, underLegalParams, hl, andThen]
  · simp [exec, execReadPartial, underLegalParams, hl, andThen]

/-- From a state of the invariant a step gives another, except where an operation meets an illegal configuration. -/
theorem step_of_inv {s : State} (hinv : s.inv = true) :
    (∃ t, step s = .next t ∧ t.inv = true) ∨
      (paramsLegal s.params = false ∧ step s = .refused .illegalConfig) := by
  cases hr : s.request with
  | some r =>
    cases hi : decodeRequest r with
    | error e =>
      exact .inl ⟨refuseRequest s, step_of_reserved hr hi, refuseRequest_inv hinv⟩
    | ok i =>
      cases hl : paramsLegal s.params with
      | true => exact .inl (step_inv_of_request hinv hl hr hi)
      | false =>
        refine .inr ⟨rfl, ?_⟩
        rw [step_of_request hr hi, andThen_exec_illegal hl]
        exact (decodeRequest_cases hi).imp_right fun h => ⟨_, _, _, _, h⟩
  | none =>
    by_cases hc : s.calls = []
    · cases hp : s.pos with
      | idle => exact .inl ⟨s, by simp [step, fetch, hr, hc, fetchOperation, hp], hinv⟩
      | initOp p =>
        cases hl : paramsLegal s.params with
        | true => exact .inl (step_inv_of_init hinv hl hr hp)
        | false =>
          refine .inr ⟨rfl, ?_⟩
          simp [step, fetch, hr, hc, fetchOperation, hp, andThen_exec_illegal hl]
      | readOp ops p =>
        cases hl : paramsLegal s.params with
        | true => exact .inl (step_inv_of_read hinv hl hr hc hp)
        | false =>
          refine .inr ⟨rfl, ?_⟩
          simp [step, fetch, hr, hc, fetchOperation, hp, andThen_exec_illegal hl]
    · exact .inl (step_inv_of_call hinv hr hc)

/-- Settles O56: the step is the one `step_of_inv` gives. -/
theorem stepKeepsTheInvariant : Obligations.StepKeepsTheInvariant := by
  intro s t hinv hstep
  obtain ⟨u, hu, hi⟩ | ⟨-, hu⟩ := step_of_inv hinv
  · rw [hu] at hstep
    cases hstep
    exact hi
  · rw [hu] at hstep
    cases hstep

/-- Settles O57: a legal configuration leaves `step_of_inv` its first case. -/
theorem invariantStatesNeverStop : Obligations.InvariantStatesNeverStop := by
  intro s hinv hl
  obtain ⟨t, ht, -⟩ | ⟨hl', -⟩ := step_of_inv hinv
  · exact ⟨t, ht⟩
  · rw [hl] at hl'
    cases hl'

end Sys2Proof.Machine
end

section
/-! PROOF. Every `INITIALIZE` ends within its bounds: each of its steps pays for one event of a budget that the
acceptance fixes (R176, R281, R282). -/

namespace Sys2Proof.Machine

/-! ## Runs -/

theorem runSteps_of_step {s t : State} (h : step s = .next t) (n : Nat) : runSteps (n + 1) s = runSteps n t := by
  have hcore : Host.Core.step Sys2Proof.core s = .next t := h
  simp only [runSteps, Host.Core.run, hcore]
  rfl

theorem runSteps_one {s t : State} (h : step s = .next t) : runSteps 1 s = .next t :=
  runSteps_of_step h 0

/-- Runs join end to end. -/
theorem runSteps_add {m : Nat} {s t : State} (h : runSteps m s = .next t) (n : Nat) :
    runSteps (m + n) s = runSteps n t := by
  induction m generalizing s with
  | zero =>
    cases h
    rw [Nat.zero_add]
  | succ m ih =>
    cases hs : step s with
    | next u =>
      rw [runSteps_of_step hs] at h
      rw [Nat.succ_add, runSteps_of_step hs, ih h]
    | fault r =>
      have hcore : Host.Core.step Sys2Proof.core s = .fault r := hs
      simp only [runSteps, Host.Core.run, hcore] at h
      cases h
    | refused r =>
      have hcore : Host.Core.step Sys2Proof.core s = .refused r := hs
      simp only [runSteps, Host.Core.run, hcore] at h
      cases h

/-! ## From the acceptance to the cleanup -/

/-- One event is a `Sel` or an `Xchg`, if it is neither a `Copy` nor a `Wr`. -/
theorem count_of_bus_event {e : Event} (hcopy : copyCount [e] = 0) (hwr : wrCount [e] = 0) :
    selCount [e] + xchgCount [e] = 1 := by
  cases e with
  | sel _ | xchg _ _ => rfl
  | copy _ _ _ => cases hcopy
  | wr _ _ _ => cases hwr

/-- A running `INITIALIZE` reaches its cleanup, one event a step, by induction on the events left to it. -/
theorem initialize_reaches_cleanup {s : State} (hrun : Running s) (hl : paramsLegal s.params = true)
    (hr : s.request = none) :
    ∃ n t evs, runSteps n s = .next t ∧ t.inv = true ∧ t.pos = .initOp .clean ∧ Spends evs s t ∧
      n + (t.selsLeft + t.xchgsLeft) ≤ s.selsLeft + s.xchgsLeft := by
  induction hleft : s.selsLeft + s.xchgsLeft using Nat.strong_induction_on generalizing s with
  | _ left ih =>
    obtain ⟨p, hp, hne⟩ := hrun.pos
    by_cases hclean : p = .clean
    · exact ⟨0, s, [], rfl, hrun.inv, by rw [hp, hclean], .refl s, by omega⟩
    · obtain ⟨e, t, hstep, hrun', hs⟩ := initialize_step hrun.inv hl hr hp hclean hne
      have hone := count_of_bus_event hs.copies hs.writes
      have hsel := hs.sels
      have hxchg := hs.xchgs
      obtain ⟨n, u, evs, hu, hinv, hpos, hspent, hn⟩ :=
        ih (t.selsLeft + t.xchgsLeft) (by omega) hrun' (by rw [hs.params]; exact hl) (hs.request.trans hr) rfl
      exact ⟨n + 1, u, evs ++ [e], by rw [runSteps_of_step hstep, hu], hinv, hpos, hs.trans hspent, by omega⟩

/-- From its cleanup `INITIALIZE` ends in two steps (R172, R173). -/
theorem initialize_ends {s : State} (hinv : s.inv = true) (hl : paramsLegal s.params = true) (hr : s.request = none)
    (hp : s.pos = .initOp .clean) :
    s.selsLeft = 1 ∧ s.xchgsLeft = 1 ∧ ∃ t b, runSteps 2 s = .next t ∧ t.inv = true ∧ t.pos = .idle ∧ t.calls = [] ∧
      t.sel = false ∧ t.refused = s.refused ∧ t.trace = .xchg Config.dummy b :: .sel false :: s.trace ∧
      t.results = .initialized t.status :: s.results ∧ (t.failure.isSome = true ↔ t.cardType = 0x00#8) := by
  obtain ⟨ty, hc, hstep, hinv'⟩ := initialize_cleanup hinv hl hr hp
  obtain ⟨-, hlabel, hstep', hend⟩ := initialize_release hinv' hl hr rfl
  refine ⟨by simp [selsLeft_of_pos hp, callSels_nil hc, InitPos.sels],
    by simp [xchgsLeft_of_pos hp, callXchgs_nil hc, InitPos.xchgs], _,
    (draw (gotoInit .release (select false { s with cardType := ty }))).1,
    by rw [runSteps_of_step hstep, runSteps_one hstep'], hend, rfl, ?_, ?_, ?_, ?_, ?_, ?_⟩
  · simp [hc]
  · simp
  · simp
  · exact dummyExchange_trace _
  · simp [State.status]
  · simpa using hlabel

/-- Settles O58: the acceptance fixes the budget, the run to the cleanup spends it, and two steps end the operation. -/
theorem initializeAlwaysCompletes : Obligations.InitializeAlwaysCompletes := by
  intro s hinv hp hc hr hl hdesel hsel
  have hrun := acceptInit_running hinv hl hc
  have hstart : step s = .next (gotoInit (.warm 1) (select false (acceptRequest s))) := by
    rw [step_of_request (i := .hostInitialize) hr rfl, exec_initialize_idle hp hc hl, andThen_next,
      settle_of_inv hrun.inv]
  generalize ht₀ : gotoInit (.warm 1) (select false (acceptRequest s)) = t₀ at hrun hstart
  have hparams : t₀.params = s.params := by simp [← ht₀]
  have hsels : t₀.selsLeft = 100012 := by
    subst ht₀
    simp [State.selsLeft, State.callSels, hc, InitPos.sels, warmSels]
  have hxchgs : t₀.xchgsLeft = 900701 := by
    subst ht₀
    simp [State.xchgsLeft, State.callXchgs, hc, InitPos.xchgs, warmSels, hdesel, hsel]
  have hl₀ : paramsLegal t₀.params = true := by rw [hparams]; exact hl
  obtain ⟨n, t, evs, hn, htinv, htpos, hspent, hcount⟩ :=
    initialize_reaches_cleanup hrun hl₀ (by simp [← ht₀])
  obtain ⟨h1, h2, u, b, hu, huinv, hidle, hcalls, hselu, hrefused, htrace, hresults, hlabel⟩ :=
    initialize_ends htinv (by rw [hspent.params]; exact hl₀) (by rw [hspent.request]; simp [← ht₀]) htpos
  have hspentSels := hspent.sels
  have hspentXchgs := hspent.xchgs
  refine ⟨n + 2 + 1, u, b, evs ++ [.sel false], by omega, ?_, hidle, hcalls, hselu, ?_, ?_, ?_, ?_, ?_, ?_, ?_, ?_, ?_⟩
  · rw [runSteps_of_step hstart, runSteps_add hn, hu]
  · rw [hrefused, hspent.refused]
    simp [← ht₀]
  · rw [htrace, hspent.trace]
    simp [← ht₀, Config.dummy]
  · simp only [selCount_append, selCount]
    omega
  · simp only [xchgCount_append, xchgCount]
    omega
  · rw [copyCount_append, hspent.copies]
    rfl
  · rw [wrCount_append, hspent.writes]
    rfl
  · simpa [cardTypes] using (inv_iff.mp huinv).1
  · rw [hresults, hspent.results]
    simp [← ht₀, State.status, statusOf]
  · rw [← Option.not_isSome_iff_eq_none, hlabel]

end Sys2Proof.Machine
end

section
/-! PROOF. Reset, the fetch, acceptance and refusal of requests, and `STATUS`. -/

namespace Sys2Proof.Machine

/-! ## Reset and step -/

/-- No entry of `D` holds a value at reset (R33). -/
theorem entry_reset (j : Nat) : entry State.reset.work.d j = none := rfl

theorem buf_reset (k : Fin 4) : State.reset.work.buf[k] = none := by
  simp [State.reset, Work.unwritten]

/-- Settles O1: every field named is read off the literal. -/
theorem resetHoldsTheSpecsValues : Obligations.ResetHoldsTheSpecsValues :=
  ⟨rfl, rfl, rfl, rfl, rfl, rfl, rfl, rfl, rfl, buf_reset, rfl, rfl, rfl, rfl, rfl,
    fun j => entry_reset j, rfl, rfl, rfl, rfl, rfl, rfl, rfl, rfl⟩

/-- Settles O2: `fetch` goes by the request, then the innermost command, then the position. -/
theorem stepRunsTheDecodedInstruction : Obligations.StepRunsTheDecodedInstruction := by
  refine fun s => ⟨fun r i hr hi => step_of_request hr hi, fun r e hr he => step_of_reserved hr he, ?_, ?_, ?_, ?_, ?_⟩
  · intro c rest i hr hc hi
    simp [step, fetch, hr, hc, fetchFrame, hi]
  · intro c rest e hr hc he
    simp [step, fetch, hr, hc, fetchFrame, he]
  · intro p hr hc hp
    simp [step, fetch, hr, hc, fetchOperation, hp]
  · intro ops p hr hc hp
    simp [step, fetch, hr, hc, fetchOperation, hp]
  · intro hr hc hp
    simp [step, fetch, hr, hc, fetchOperation, hp]

/-- Settles O46: neither code decodes. -/
theorem reservedOperationIsRefused : Obligations.ReservedOperationIsRefused := by
  intro s r hr hop
  have he : decodeRequest r = .error .reservedOp := by
    rcases hop with hop | hop <;> simp [decodeRequest, hop]
  exact step_of_reserved hr he

/-! ## Acceptance -/

/-- Settles O20: the state of the acceptance, written out. -/
theorem initializeIsAccepted : Obligations.InitializeIsAccepted := by
  intro s hp hc hl
  exact exec_initialize_idle hp hc hl

/-- The byte address of a block, modulo 2^32 (R52). -/
theorem mul_sectorSize_eq_ofNat (blk : Word32) : blk * 512#32 = BitVec.ofNat 32 (blk.toNat * 512) := by
  apply BitVec.eq_of_toNat_eq
  simp [BitVec.toNat_mul]

/-- Settles O33: the read command is entered with the translated address and begins its bracketing. -/
theorem readIsAcceptedWithTranslatedAddress : Obligations.ReadIsAcceptedWithTranslatedAddress := by
  intro dst blk ofs cnt s addr hp hc hl hofs hcnt hcnt' hsum haddr
  have hw : windowOk ofs cnt = true := by simp [windowOk, hofs, hcnt, hcnt', hsum]
  have htrans : translateBlock blk s.cardType = addr := by
    rw [haddr, translateBlock, mul_sectorSize_eq_ofNat]
  have hcalls : (startRead ⟨dst, blk, ofs, cnt⟩ s).calls =
      ⟨frameOf s.params.crc7Mode codeCmd17 addr, .bracket 0⟩ :: [] := by
    rw [startRead_calls, htrans, hc]
    rfl
  rw [exec_read_idle hp hc hl, acceptRead, if_pos hw, dispatchEvent, hcalls]
  subst htrans
  rfl

/-- Settles O35: a broken bound makes the window no window. -/
theorem badWindowIsRefused : Obligations.BadWindowIsRefused := by
  intro dst blk ofs cnt s hp hc hl hbad
  have hw : ¬ windowOk ofs cnt = true := by
    simp only [windowOk, Bool.and_eq_true, decide_eq_true_eq]
    omega
  rw [exec_read_idle hp hc hl, acceptRead, if_neg hw]
  rfl

/-! ## `STATUS` -/

theorem statusOf_eq_ready {cardType : Byte} : statusOf cardType = .ready ↔ cardType ≠ 0x00#8 := by
  unfold statusOf
  split <;> simp [*]

theorem statusOf_eq_notInitialized {cardType : Byte} : statusOf cardType = .notInitialized ↔ cardType = 0x00#8 := by
  unfold statusOf
  split <;> simp [*]

/-- Settles O60: the release returns the `STATUS` of the classification stored at the cleanup. -/
theorem statusFollowsCardTypeAndIsTheResult : Obligations.StatusFollowsCardTypeAndIsTheResult := by
  refine ⟨fun s => ⟨statusOf_eq_ready, statusOf_eq_notInitialized⟩, fun s hinv hl hr hp => ?_⟩
  obtain ⟨-, -, hstep, -⟩ := initialize_release hinv hl hr hp
  exact ⟨_, hstep, rfl, by simp [State.status]⟩

end Sys2Proof.Machine
end

section
/-! PROOF. The bytes of a frame, byte addresses, and the writes of the destination. -/

namespace Sys2Proof

/-! ## The bytes of a frame -/

/-- `F1` to `F4` are the bytes of the argument (R80). -/
theorem frameByte_eq_argByte (w : Frame) (k : Fin 6) (h1 : 1 ≤ k.val) (h4 : k.val ≤ 4) :
    frameByte w k = (frameArg w).extractLsb' (8 * (4 - k.val)) 8 := by
  apply BitVec.eq_of_getLsbD_eq
  intro i hi
  simp only [frameByte, frameArg, BitVec.getLsbD_extractLsb', hi, decide_true, Bool.true_and,
    show 8 * (4 - k.val) + i < 32 by omega, show 8 + (8 * (4 - k.val) + i) = 8 * (5 - k.val) + i by omega]

/-- A frame is sent as `F0`, the four bytes of its argument, and `F5` (R54, R80). -/
theorem frameBytes_eq_fields (w : Frame) : frameBytes w = frameF0 w :: argBytes (frameArg w) ++ [frameF5 w] := by
  have arg (k : Fin 6) (h1 : 1 ≤ k.val) (h4 : k.val ≤ 4) := frameByte_eq_argByte w k h1 h4
  rw [frameBytes, arg 1 (by decide) (by decide), arg 2 (by decide) (by decide), arg 3 (by decide) (by decide),
    arg 4 (by decide) (by decide)]
  rfl

/-- Settles O8: the fields of `frameOf` are its code, its argument and its trailing byte. -/
theorem frameBytesAreCodeArgumentTrailer : Obligations.FrameBytesAreCodeArgumentTrailer := by
  intro mode code arg
  refine ⟨?_, ?_, ?_⟩
  · rw [frameBytes_eq_fields, frameF0_frameOf, frameArg_frameOf, frameF5_frameOf]
    rfl
  · rintro rfl
    rfl
  · rintro rfl
    rfl

end Sys2Proof

namespace Sys2Proof.Machine

/-! ## Byte addresses -/

/-- A byte-addressed card takes the first byte of the block as its address (R52). -/
theorem translateBlock_of_byteAddressed (blk : Word32) {cardType : Byte} (h : cardType.getLsbD 3 = false) :
    translateBlock blk cardType = blk * 512#32 :=
  if_neg (by rw [h]; decide)

/-- Settles O34: 2^23 blocks are 2^32 bytes. -/
theorem byteAddressIsSectorAlignedAndWraps : Obligations.ByteAddressIsSectorAlignedAndWraps := by
  intro blk cardType h
  have hnat : (translateBlock blk cardType).toNat = blk.toNat * 512 % 2 ^ 32 := by
    rw [translateBlock_of_byteAddressed blk h, mul_sectorSize_eq_ofNat, BitVec.toNat_ofNat]
  have hwrap : 0x00800000#32 * 512#32 = 0#32 := by decide
  refine ⟨by omega, hnat, ?_⟩
  rw [translateBlock_of_byteAddressed _ h, translateBlock_of_byteAddressed _ h, BitVec.add_mul, hwrap, BitVec.add_zero]

/-! ## The destination -/

/-- From `s` to `t` a destination byte changes only in a `Copy` event, in a `Wr` event, or at the release of a failed
read, at the addresses each may write (R62, R211). -/
def DestFrame (s t : State) : Prop :=
  ∀ a, t.dest.read a ≠ s.dest.read a →
    (∃ dst ofs cnt, t.trace = .copy dst ofs cnt :: s.trace ∧
      destAddr dst 0 ≤ a ∧ a < destAddr dst 0 + cnt.toNat) ∨
    (∃ dst i v, t.trace = .wr dst i v :: s.trace ∧ a = destAddr dst i) ∨
    (∃ ops, s.pos = .readOp ops .release ∧ t.results = .read .error :: s.results ∧
      destAddr ops.dst 0 ≤ a ∧ a < destAddr ops.dst 0 + ops.cnt.toNat)

theorem DestFrame.of_dest_eq {s t : State} (h : t.dest = s.dest) : DestFrame s t :=
  fun a ha => absurd (by rw [h]) ha

theorem DestFrame.of_quiet {s t u : State} (h : DestFrame s t) (q : Quiet t u) : DestFrame s u := by
  intro a ha
  rw [q.dest] at ha
  rw [q.trace, q.results]
  exact h a ha

/-- Where writing consecutive bytes changes a byte, it is one of those written. -/
theorem Memory.mem_window_of_writeList {m : Memory} {a b : Nat} {vs : List Byte}
    (h : (m.writeList b vs).read a ≠ m.read a) : b ≤ a ∧ a < b + vs.length := by
  by_contra hout
  exact h (Memory.read_writeList_outside vs m b a (by omega))

theorem copyStep_destFrame (ops : ReadOperands) (s : State) : DestFrame s (copyStep ops s) := by
  intro a ha
  refine .inl ⟨ops.dst, ops.ofs, ops.cnt, by simp [copyStep], ?_⟩
  simp only [copyStep, copyWindow, gotoRead_dest, drawMany_dest, emit_dest] at ha
  obtain ⟨hlo, hhi⟩ := Memory.mem_window_of_writeList ha
  exact ⟨hlo, hhi.trans_le (by simp)⟩

theorem dstWrite_destFrame (dst : Handle) (i : Nat) (v : Byte) (s : State) : DestFrame s (dstWrite dst i v s) := by
  intro a ha
  refine .inr (.inl ⟨dst, i, v, rfl, ?_⟩)
  by_contra hne
  exact ha (Memory.read_write_other _ _ _ _ hne)

theorem readRelease_destFrame {ops : ReadOperands} {s t : State} (hp : s.pos = .readOp ops .release)
    (h : readRelease ops s = .next t) : DestFrame s t := by
  obtain ⟨r, -, h⟩ := need_eq_next.mp h
  cases h
  cases r with
  | ok => exact .of_dest_eq (by simp [destAfter])
  | error =>
    intro a ha
    refine .inr (.inr ⟨ops, hp, by simp, ?_⟩)
    simp only [destAfter, returnToHost_dest, scrambleWindow_dest, dummyExchange_dest] at ha
    simpa [freeBytes] using Memory.mem_window_of_writeList ha

theorem tokenStep_dest {ops : ReadOperands} {s t : State} (h : tokenStep ops s = .next t) : t.dest = s.dest := by
  obtain ⟨bc, -, rfl⟩ := tokenStep_cases h
  have hread : (tokenRead bc s).dest = s.dest := by simp [tokenRead]
  split
  · exact (tokenDecide_quiet ..).dest.trans hread
  · exact hread

theorem packetStep_dest {ops : ReadOperands} {j : Fin 514} {s t : State} (h : packetStep ops j s = .next t) :
    t.dest = s.dest := by
  have hread : (packetRead j s).dest = s.dest := by simp [packetRead]
  rw [packetStep_eq] at h
  split at h
  · cases h
    exact hread
  · exact (nextPacket_quiet h).dest.trans hread

/-- Which events of `READ_PARTIAL` write the destination (R205, R207, R211). -/
theorem readEvent_destFrame {ops : ReadOperands} {p : ReadPos} {s t : State} (hp : s.pos = .readOp ops p)
    (h : readEvent ops p s = .next t) : DestFrame s t := by
  cases p with
  | cmd17 => exact .of_dest_eq (dispatchEvent_frame h).dest
  | token => exact .of_dest_eq (tokenStep_dest h)
  | copy =>
    obtain rfl : copyStep ops s = t := by simpa [readEvent] using h
    exact copyStep_destFrame ops s
  | packet j => exact .of_dest_eq (packetStep_dest h)
  | write j =>
    obtain ⟨v, -, h⟩ := need_eq_next.mp h
    exact DestFrame.of_quiet (dstWrite_destFrame _ _ v s) (nextPacket_quiet h)
  | clean =>
    cases h
    exact .of_dest_eq rfl
  | release => exact readRelease_destFrame hp h

/-- No instruction but `READ_PARTIAL` writes the destination (R62). -/
theorem exec_destFrame {i : Instr} {s t : State} (h : exec i s = .next t) : DestFrame s t := by
  cases i with
  | hostInitialize =>
    obtain ⟨-, rfl | ⟨-, -, h⟩ | ⟨p, hp, -, h⟩⟩ := execInitialize_cases h
    · exact .of_dest_eq rfl
    · exact .of_dest_eq (initEvent_frame (s := gotoInit (.warm 0) (acceptRequest s)) rfl h).2.1
    · exact .of_dest_eq (initEvent_frame hp h).2.1
  | readPartial dst blk ofs cnt =>
    obtain ⟨-, rfl | ⟨-, -, -, h⟩ | ⟨p, hp, -, h⟩⟩ := execReadPartial_cases h
    · exact .of_dest_eq rfl
    · exact .of_dest_eq (dispatchEvent_frame h).dest
    · exact readEvent_destFrame hp h
  | acmd41 hcs =>
    cases hcs <;> exact .of_dest_eq (exec_command_frame rfl h).dest
  | _ => exact .of_dest_eq (exec_command_frame rfl h).dest

/-- Settles O51: the resolution of returns writes no byte, so a change is the event's own. -/
theorem destinationIsWrittenOnlyByReads : Obligations.DestinationIsWrittenOnlyByReads := by
  intro s t a h
  have hframe : DestFrame s t := by
    rcases step_cases h with ⟨-, rfl⟩ | ⟨-, rfl⟩ | ⟨i, u, -, hu, ht⟩
    · exact .of_dest_eq rfl
    · exact .of_dest_eq rfl
    · exact DestFrame.of_quiet (exec_destFrame hu) (settle_quiet ht)
  exact hframe a

end Sys2Proof.Machine
end

section
/-! PROOF. The words of the instructions, decoded and encoded (R80 to R85, R96). -/

namespace Sys2Proof

open Machine

/-! ## The round trip -/

section Commands

variable {i : Instr} {code : Byte} {arg : Word32}

/-- The words of a card command are the frame of its code and argument (R80, R82, R85). -/
theorem encode_of_command (h : commandOf i = some (code, arg)) (mode : Crc7Mode) :
    encode mode i = .frame (frameOf mode code arg) := by
  cases i with
  | acmd41 hcs => cases hcs <;> cases h <;> rfl
  | _ => cases h <;> rfl

/-- `F0` and the argument of a card command are decoded as the command (R82, R85). -/
theorem decodeCommand_of_command (h : commandOf i = some (code, arg)) :
    decodeCommand (code &&& 0x7F#8) arg = .ok i := by
  cases i with
  | acmd41 hcs => cases hcs <;> cases h <;> rfl
  | _ => cases h <;> rfl

end Commands

/-- An instruction that is no card command is one of the two host requests (R96). -/
theorem hostRequest_of_commandOf_none {i : Instr} (h : commandOf i = none) :
    i = .hostInitialize ∨ ∃ dst blk ofs cnt, i = .readPartial dst blk ofs cnt := by
  cases i with
  | hostInitialize => exact .inl rfl
  | readPartial dst blk ofs cnt => exact .inr ⟨dst, blk, ofs, cnt, rfl⟩
  | acmd41 hcs => cases hcs <;> cases h
  | _ => cases h

/-- Settles O5: a card command by its code and argument, a host request by its `OP`. -/
theorem decodeOfEncodeIsTheInstruction : Obligations.DecodeOfEncodeIsTheInstruction := by
  intro mode i
  cases hc : commandOf i with
  | some p =>
    obtain ⟨code, arg⟩ := p
    rw [encode_of_command hc, decode, decodeFrame_frameOf, decodeCommand_of_command hc]
  | none =>
    rcases hostRequest_of_commandOf_none hc with rfl | ⟨dst, blk, ofs, cnt, rfl⟩
    · rfl
    · rfl

/-- Settles O6: a frame that decodes is the frame of a command's code and argument. -/
theorem encodeOfDecodeIsTheFrame : Obligations.EncodeOfDecodeIsTheFrame := by
  intro mode w i h
  obtain ⟨code, arg, hi, rfl⟩ := decodeFrame_cases h
  exact encode_of_command hi mode

/-! ## Frames written out -/

/-- A frame with a command's code, argument and trailing byte is the command's (R80, R83, R84). -/
theorem encode_eq_frame {mode : Crc7Mode} {i : Instr} {code : Byte} {arg : Word32} {w : Frame}
    (h : commandOf i = some (code, arg)) (hf0 : frameF0 w = code &&& 0x7F#8) (harg : frameArg w = arg)
    (hf5 : frameF5 w = trailer mode (code &&& 0x7F#8) arg) : encode mode i = .frame w := by
  rw [encode_of_command h, frameOf, ← hf5, ← hf0, ← harg]
  exact congrArg Encoded.frame (frame_eq_fields w)

/-- Settles O9: each frame has its command's code and argument, and its trailing byte is computed. -/
theorem fixedFramesInBothCrc7Modes : Obligations.FixedFramesInBothCrc7Modes := by
  refine ⟨⟨?_, ?_⟩, ⟨?_, ?_⟩, ⟨?_, ?_⟩, ⟨?_, ?_⟩, ⟨?_, ?_⟩, ⟨?_, ?_⟩, ⟨?_, ?_⟩, ⟨?_, ?_⟩, ⟨?_, ?_⟩, ⟨?_, ?_⟩, ?_, ?_⟩
  all_goals exact encode_eq_frame rfl rfl rfl (by decide +kernel)

/-- A 48-bit word that is an instruction's frame in the default mode decodes to the instruction. -/
theorem decodeTableWord_of_encode {i : Instr} {w : Nat} (h : encode .table i = .frame (BitVec.ofNat 48 w)) :
    decodeTableWord 48 w = some i := by
  have hd := decodeOfEncodeIsTheInstruction .table i
  rw [h] at hd
  change decodedInstr (decode .table (.frame (BitVec.ofNat 48 w))) = some i
  rw [hd]
  rfl

/-- Settles O4: the words that decode are frames of O9 and requests; the others break one field each. -/
theorem wordsOfTheSpecDecode : Obligations.WordsOfTheSpecDecode := by
  obtain ⟨⟨hcmd0, -⟩, -, ⟨hcmd8, -⟩, -, -, -, ⟨hacmd41, -⟩, ⟨hhcs, -⟩, -, ⟨hcmd17, -⟩, -⟩ := fixedFramesInBothCrc7Modes
  refine ⟨decodeTableWord_of_encode hcmd0, decodeTableWord_of_encode hcmd8, decodeTableWord_of_encode hcmd17,
    decodeTableWord_of_encode hhcs, decodeTableWord_of_encode hacmd41, by decide, rfl, rfl, rfl⟩

/-! ## A request as one number -/

/-- The handle is the part of the word above the other fields (notes/assumptions/3.md). -/
theorem wordOfRequest_div_dst (r : Request) : wordOfRequest r / 2 ^ 54 = r.dst :=
  show @Eq Nat _ _ by unfold wordOfRequest; omega

/-- Settles O7: each field starts where the fields before it end. -/
theorem requestWordHoldsEveryField : Obligations.RequestWordHoldsEveryField := by
  intro r
  have hop : BitVec.ofNat 2 (wordOfRequest r) = r.op := by unfold wordOfRequest; bv_omega
  have hblk : BitVec.ofNat 32 (wordOfRequest r / 2 ^ 2) = r.blk := by unfold wordOfRequest; bv_omega
  have hofs : BitVec.ofNat 10 (wordOfRequest r / 2 ^ 34) = r.ofs := by unfold wordOfRequest; bv_omega
  have hcnt : BitVec.ofNat 10 (wordOfRequest r / 2 ^ 44) = r.cnt := by unfold wordOfRequest; bv_omega
  rw [requestOfWord, hop, hblk, hofs, hcnt, wordOfRequest_div_dst]

end Sys2Proof
end

section
/-! PROOF. The exchanges of a card command and the token read, their next states written out (R80, R123, R124, R204). -/

namespace Sys2Proof.Machine

/-- The state after an exchange: the byte is taken, and the event stands on the trace (R10). -/
theorem exchange_snd (o : Byte) (s : State) :
    (exchange o s).2 = { (draw s).2 with trace := .xchg o (draw s).1 :: s.trace } := by
  simp [exchange, emit]

/-- At its own call, a card command makes the dispatcher's event (R120). -/
theorem exec_at_call {i : Instr} {code : Byte} {arg : Word32} {s : State} {p : CallPos} {rest : List Call}
    (h : commandOf i = some (code, arg)) (hc : s.calls = ⟨frameOf s.params.crc7Mode code arg, p⟩ :: rest) :
    exec i s = dispatchEvent s := by
  rw [exec_of_command h, dispatch_at_call hc rfl]

/-! ## The frame -/

/-- `Fk` is the `k`-th byte of those sent (R80). -/
theorem frameByte_eq_getD (w : Frame) (k : Fin 6) : frameByte w k = (frameBytes w).getD k.val 0#8 := by
  match k with
  | 0 | 1 | 2 | 3 | 4 | 5 => rfl

/-- `F0` to `F4` are the code and the argument (R80). -/
theorem frameByte_frameOf_of_lt (mode : Crc7Mode) (code : Byte) (arg : Word32) {k : Fin 6} (hk : k.val < 5) :
    frameByte (frameOf mode code arg) k = ((code &&& 0x7F#8) :: argBytes arg).getD k.val 0#8 := by
  rw [frameByte_eq_getD, frameBytes_eq_fields, frameF0_frameOf, frameArg_frameOf]
  exact List.getD_append _ _ _ _ hk

/-- `F5` is the trailing byte (R80, R83, R84). -/
theorem frameByte_frameOf_last (mode : Crc7Mode) (code : Byte) (arg : Word32) :
    frameByte (frameOf mode code arg) 5 = trailer mode (code &&& 0x7F#8) arg :=
  frameF5_frameOf mode code arg

/-- Settles O11: the byte due is exchanged; after `F5` the poll begins. -/
theorem commandSendsItsSixBytes : Obligations.CommandSendsItsSixBytes := by
  rintro i code arg s w rest hi rfl
  refine ⟨fun k k' hk hc => ?_, fun hc => ?_⟩
  · have hk5 : k.val < 5 := by omega
    have hnext : (⟨k.val + 1, by omega⟩ : Fin 6) = k' := Fin.ext hk.symm
    simp only [exec_at_call hi hc, dispatchEvent, hc, frameStep_of_lt (Nat.succ_lt_succ hk5), exchange_snd,
      frameByte_frameOf_of_lt _ _ _ hk5, hnext, argBytes]
  · simp only [exec_at_call hi hc, dispatchEvent, hc, frameStep_of_last (k := 5) (by decide), exchange_snd,
      frameByte_frameOf_last, draw_work, Config.nRespPoll]

/-! ## The response poll -/

/-- A poll ends with a response, or with the last attempt (R88, R124). -/
theorem pollEnds_iff {r1 n : Byte} : pollEnds r1 (n - 1#8) = true ↔ r1.getLsbD 7 = false ∨ n = 1#8 := by
  have hn : n - 1#8 = 0#8 ↔ n = 1#8 := by bv_omega
  simp [pollEnds, noResponse, hn]

/-- Settles O12: a poll read ends the command or leaves it polling. -/
theorem commandPollsForItsResponse : Obligations.CommandPollsForItsResponse := by
  rintro i code arg s w rest n hi rfl hc hn
  have hexec : exec i s = pollStep (frameOf s.params.crc7Mode code arg) rest s := by
    simp only [exec_at_call hi hc, dispatchEvent, hc]
  rw [hexec, pollStep_of_some hn, pollRead, exchange_snd]
  refine ⟨fun hend => ?_, fun ⟨hbusy, hleft⟩ => ?_⟩
  · rw [if_pos (pollEnds_iff.mpr hend)]
    rfl
  · have hgo : ¬ pollEnds (draw s).1 (n - 1#8) = true := by simp [pollEnds_iff, hbusy, hleft]
    rw [if_neg hgo]
    rfl

/-! ## The data token -/

/-- A read with an event due makes it (R200). -/
theorem exec_read_due {s : State} {dst : Handle} {blk : Word32} {ofs cnt : BitVec 10} {p : ReadPos}
    (hl : paramsLegal s.params = true) (hr : s.request = none) (hp : s.pos = .readOp ⟨dst, blk, ofs, cnt⟩ p) :
    exec (.readPartial dst blk ofs cnt) s = readEvent ⟨dst, blk, ofs, cnt⟩ p s := by
  simp [exec, execReadPartial, underLegalParams, hl, hr, hp]

/-- One token read takes a byte into `RC` and counts `BC` down (R204). -/
theorem tokenRead_eq (bc : BitVec 16) (s : State) :
    tokenRead bc s =
      { (draw s).2 with
        trace := .xchg 0xFF#8 (draw s).1 :: s.trace
        work := { s.work with rc := some (draw s).1, bc := some (bc - 1#16) } } := by
  rw [tokenRead, exchange_snd]
  rfl

/-- The token detector's loop ends at any byte but 0xFF, or with the last read (R204). -/
theorem tokenEnds_iff {rc : Byte} {bc : BitVec 16} : tokenEnds rc (bc - 1#16) = true ↔ rc ≠ 0xFF#8 ∨ bc = 1#16 := by
  have hbc : bc - 1#16 = 0#16 ↔ bc = 1#16 := by bv_omega
  simp only [tokenEnds, Bool.or_eq_true, decide_eq_true_eq, hbc]
  rfl

/-- 0xFE begins the copy step: the `Copy` event in the delegated mode, the first exchange in the inline mode (R91, R205,
R207). -/
theorem tokenDecide_start {ops : ReadOperands} {rc : Byte} {s : State} (h : rc = 0xFE#8) :
    tokenDecide ops rc s = gotoRead ops (if s.params.copyMode = .delegated then .copy else .packet 0) s := by
  subst h
  change gotoRead ops (copyStart s.params.copyMode) s = _
  cases s.params.copyMode <;> rfl

/-- 0xFF as the last byte is a timeout (R91, R204). -/
theorem tokenDecide_wait {ops : ReadOperands} {rc : Byte} {s : State} (h : rc = 0xFF#8) :
    tokenDecide ops rc s = failEntry .tokenTimeout s := by
  subst h
  rfl

/-- Every other byte is a malformed token (R91). -/
theorem tokenDecide_bad {ops : ReadOperands} {rc : Byte} {s : State} (hstart : rc ≠ 0xFE#8) (hwait : rc ≠ 0xFF#8) :
    tokenDecide ops rc s = failEntry (.tokenBad rc) s := by
  have hbad : tokenOf rc = .bad := by
    simp only [tokenOf, Config.tokenStart, Config.tokenWait, hstart, hwait, if_false]
  rw [tokenDecide, hbad]

/-- Settles O37: the loop goes on or ends, and the byte that ends it decides. -/
theorem tokenReadDecides : Obligations.TokenReadDecides := by
  intro s dst blk ofs cnt bc hl hr _ hp hbc
  have hpos : (tokenRead bc s).pos = .readOp ⟨dst, blk, ofs, cnt⟩ .token := by simpa [tokenRead] using hp
  have hparams : (tokenRead bc s).params = s.params := by simp [tokenRead]
  rw [exec_read_due hl hr hp, readEvent, tokenStep_of_some _ hbc]
  refine ⟨fun hstart => ?_, fun ⟨hwait, hleft⟩ => ?_, fun ⟨hwait, hlast⟩ => ?_, fun ⟨hstart, hwait⟩ => ?_⟩
  · rw [if_pos (tokenEnds_iff.mpr (.inl (by simp [hstart]))), tokenDecide_start hstart, hparams, tokenRead_eq]
    rfl
  · rw [if_neg (by simp [tokenEnds_iff, hwait, hleft]), tokenRead_eq]
  · rw [if_pos (tokenEnds_iff.mpr (.inr hlast)), tokenDecide_wait hwait, failEntry_readOp _ _ _ _ hpos,
      tokenRead_eq, hlast]
    rfl
  · rw [if_pos (tokenEnds_iff.mpr (.inl hwait)), tokenDecide_bad hstart hwait, failEntry_readOp _ _ _ _ hpos,
      tokenRead_eq]

end Sys2Proof.Machine
end

section
/-! PROOF. Every admitted `READ_PARTIAL` ends within its bounds: each of its steps pays for one event of a budget that the
acceptance fixes (R213, R214, R282). -/

namespace Sys2Proof.Machine

/-! ## What a read can still cost -/

/-- The exchanges of the packet that the core makes itself (R205, R207). -/
def packetXchgs (mode : CopyMode) : Nat :=
  match mode with
  | .delegated => 0
  | .inlined => 514

theorem packetXchgs_le (mode : CopyMode) : packetXchgs mode ≤ 514 := by
  cases mode <;> decide

/-- The `Xchg` events before the cleanup that `READ_PARTIAL` can still make from position `p`, with `bc` token reads
left, those of the command in progress left out. -/
def ReadPos.xchgs (mode : CopyMode) (bc : Nat) (p : ReadPos) : Nat :=
  match p with
  | .cmd17 => 30000 + packetXchgs mode
  | .token => bc + packetXchgs mode
  | .packet j => 514 - j
  | .write j => 513 - j
  | .copy | .clean | .release => 0

/-- The `Copy` and `Wr` events `READ_PARTIAL` can still make from position `p`. -/
def ReadPos.stores (p : ReadPos) : Nat :=
  match p with
  | .cmd17 | .token => 514
  | .copy => 1
  | .packet j | .write j => 514 - j
  | .clean | .release => 0

/-- The token reads left in `BC` (R204). -/
def State.tokenReads (s : State) : Nat := s.work.bc.elim 0 BitVec.toNat

/-- The `Xchg` events a running `READ_PARTIAL` can still make before its cleanup. -/
def State.readXchgsLeft (s : State) : Nat :=
  s.callXchgs + match s.pos with
    | .readOp _ p => p.xchgs s.params.copyMode s.tokenReads
    | .idle | .initOp _ => 0

/-- The `Copy` and `Wr` events a running `READ_PARTIAL` can still make. -/
def State.storesLeft (s : State) : Nat :=
  match s.pos with
  | .readOp _ p => p.stores
  | .idle | .initOp _ => 0

/-- The `Copy` events a running `READ_PARTIAL` has made: one exactly with `RESULT` at `OK` in delegated mode (R205). -/
def State.copied (s : State) : Nat :=
  if s.params.copyMode = .delegated ∧ s.work.result = some .ok then 1 else 0

theorem readXchgsLeft_of_pos {s : State} {ops : ReadOperands} {p : ReadPos} (hp : s.pos = .readOp ops p) :
    s.readXchgsLeft = s.callXchgs + p.xchgs s.params.copyMode s.tokenReads := by
  simp only [State.readXchgsLeft, hp]

theorem storesLeft_of_pos {s : State} {ops : ReadOperands} {p : ReadPos} (hp : s.pos = .readOp ops p) :
    s.storesLeft = p.stores := by
  simp only [State.storesLeft, hp]

theorem copied_of_error {s : State} (h : s.work.result = some .error) : s.copied = 0 := by
  simp [State.copied, h]

theorem copied_of_inlined {s : State} (h : s.params.copyMode = .inlined) : s.copied = 0 := by
  simp [State.copied, h]

/-- Nothing of the configuration, of the host's interface or of the classification changes from `s` to `t`. -/
structure SameHost (s t : State) : Prop where
  params : t.params = s.params
  cardType : t.cardType = s.cardType
  request : t.request = s.request
  refused : t.refused = s.refused
  results : t.results = s.results

theorem SameHost.refl (s : State) : SameHost s s := ⟨rfl, rfl, rfl, rfl, rfl⟩

theorem SameHost.trans {s t u : State} (h : SameHost s t) (h' : SameHost t u) : SameHost s u where
  params := h'.params.trans h.params
  cardType := h'.cardType.trans h.cardType
  request := h'.request.trans h.request
  refused := h'.refused.trans h.refused
  results := h'.results.trans h.results

theorem Quiet.sameHost {s t : State} (h : Quiet s t) : SameHost s t :=
  ⟨h.params, h.cardType, h.request, h.refused, h.results⟩

theorem DispatchFrame.sameHost {s t : State} (h : DispatchFrame s t) : SameHost s t :=
  ⟨h.params, h.cardType, h.request, h.refused, h.results⟩

/-- From `s` to `t`, inside `READ_PARTIAL` before its cleanup, the events `evs` are made, newest first; what can still be
made falls by them, and every `Sel` owed is made. -/
structure ReadSpends (evs : List Event) (s t : State) : Prop extends SameHost s t where
  trace : t.trace = evs ++ s.trace
  sels : selCount evs + t.callSels = s.callSels
  xchgs : xchgCount evs + t.readXchgsLeft ≤ s.readXchgsLeft
  stores : copyCount evs + wrCount evs + t.storesLeft ≤ s.storesLeft
  copies : t.copied = copyCount evs + s.copied
  writes : s.params.copyMode = .delegated → wrCount evs = 0

theorem ReadSpends.refl (s : State) : ReadSpends [] s s :=
  ⟨.refl s, rfl, by simp [selCount], by simp [xchgCount], by simp [copyCount, wrCount], by simp [copyCount],
    fun _ => rfl⟩

theorem ReadSpends.trans {es fs : List Event} {s t u : State} (h : ReadSpends es s t) (h' : ReadSpends fs t u) :
    ReadSpends (fs ++ es) s u where
  toSameHost := h.toSameHost.trans h'.toSameHost
  trace := by rw [h'.trace, h.trace, List.append_assoc]
  sels := by have := h.sels; have := h'.sels; rw [selCount_append]; omega
  xchgs := by have := h.xchgs; have := h'.xchgs; rw [xchgCount_append]; omega
  stores := by have := h.stores; have := h'.stores; rw [copyCount_append, wrCount_append]; omega
  copies := by rw [h'.copies, h.copies, copyCount_append, Nat.add_assoc]
  writes hm := by rw [wrCount_append, h.writes hm, h'.writes (by rwa [h.params])]

/-! ## With the read command in progress -/

section Command

variable {s t : State} {ops : ReadOperands}

/-- While a read waits for its command, that command is the only one in progress, and it has no prefix (R28, R203). -/
theorem call_of_cmd17 (hinv : s.inv = true) (hp : s.pos = .readOp ops .cmd17) :
    ∃ c, s.calls = [c] ∧ c.pos ≠ .prefixWait ∧ c.pos ≠ .prefixDue := by
  obtain ⟨-, addr, -, hcall, -⟩ := readOk_cmd17.mp (readOk_of_inv hinv hp)
  have hf0 {w : Frame} (hw : (w == frameOf s.params.crc7Mode codeCmd17 addr) = true) : frameF0 w ≠ 0x69#8 := by
    rw [beq_iff_eq.mp hw, frameF0_frameOf]
    decide
  obtain ⟨c, rest, hc⟩ := List.exists_cons_of_ne_nil (calls_ne_nil_of_calling hcall)
  rw [calling, hc] at hcall
  obtain ⟨hw, -, ⟨rfl, -, hd⟩ | ⟨w, rfl, -, -, -, h69⟩⟩ := (callsOk_cons hc).mp (callsOk_of_inv hinv)
  · exact ⟨c, hc, hw, fun hdue => hf0 (by simpa using hcall) (hd hdue)⟩
  · exact absurd h69 (hf0 (by simpa using hcall))

/-- A command without prefix makes every `Sel` it owes (R122, R126). -/
theorem dispatchEvent_sels {c : Call} {u : State} (hc : s.calls = [c]) (hw : c.pos ≠ .prefixWait)
    (hd : c.pos ≠ .prefixDue) (h : dispatchEvent s = .next u) :
    prefixReturn u = .next u ∧ selCount u.trace + u.callSels = selCount s.trace + s.callSels := by
  rcases dispatchEvent_cases h with ⟨hnil, -⟩ | ⟨w, rest, hcall, -⟩ | ⟨w, rest, hcall, -⟩ | ⟨w, k, rest, hcall, rfl⟩ |
    ⟨w, k, rest, hcall, rfl⟩ | ⟨w, rest, hcall, h⟩
  · simp [hc] at hnil
  all_goals
    obtain ⟨rfl, rfl⟩ : c = _ ∧ rest = [] := by simpa [hc] using hcall
  · exact absurd rfl hw
  · exact absurd rfl hd
  · refine ⟨prefixReturn_of_call rfl (afterBracket_ne_prefixWait k), ?_⟩
    match k with
    | 0 | 1 | 2 | 3 => simp [State.callSels, hc, bracketStep, bracketEvent, afterBracket, selCount, CallPos.sels]
  · obtain ⟨d, hcalls, hne⟩ := frameStep_calls w k [] s
    refine ⟨prefixReturn_of_call hcalls hne, ?_⟩
    by_cases hk : k.val + 1 < 6
    · simp [State.callSels, hc, frameStep_of_lt hk, selCount, CallPos.sels]
    · simp [State.callSels, hc, frameStep_of_last hk, selCount, CallPos.sels]
  · obtain ⟨n, -, rfl⟩ := pollStep_cases h
    split
    · exact ⟨prefixReturn_of_no_call rfl, by simp [State.callSels, hc, selCount]⟩
    · exact ⟨prefixReturn_of_call rfl (by simp), by simp [State.callSels, hc, selCount]⟩

/-- A step with only a command without prefix in progress: a turn of the dispatcher that makes every `Sel` owed. -/
theorem step_of_plain_call {c : Call} (hs : callsOk s = true) (hr : s.request = none) (hc : s.calls = [c])
    (hw : c.pos ≠ .prefixWait) (hd : c.pos ≠ .prefixDue) :
    ∃ t, DispatchTurn s t ∧ step s = operationReturn t ∧
      selCount t.trace + t.callSels = selCount s.trace + s.callSels := by
  obtain ⟨i, hi, hexec⟩ := fetch_at_call hr hc (commandFrame_of_callsOk hs hc)
  obtain ⟨u, t, hu, ht, h⟩ := dispatcher_turn hs hc
  obtain ⟨hret, hsels⟩ := dispatchEvent_sels hc hw hd hu
  obtain rfl : u = t := by rw [hret] at ht; cases ht; rfl
  exact ⟨u, h, by simp only [step, hi, hexec, hu, settle, ht, andThen_next], hsels⟩

/-- A turn of the read command pays for its event. -/
theorem DispatchTurn.readSpends (h : DispatchTurn s t) (hp : s.pos = .readOp ops .cmd17)
    (hsels : selCount t.trace + t.callSels = selCount s.trace + s.callSels) : ∃ e, ReadSpends [e] s t := by
  obtain ⟨e, htrace, -, hxchg, hcopy, hwr⟩ := h.spent
  have hpt : t.pos = .readOp ops .cmd17 := h.pos.trans hp
  refine ⟨e, h.toDispatchFrame.sameHost, htrace, ?_, ?_, ?_, ?_, fun _ => hwr⟩
  · have := selCount_append [e] s.trace
    simp only [htrace, List.singleton_append] at hsels this
    omega
  · rw [readXchgsLeft_of_pos hp, readXchgsLeft_of_pos hpt, h.params]
    simp only [ReadPos.xchgs]
    omega
  · simp [storesLeft_of_pos hp, storesLeft_of_pos hpt, hcopy, hwr]
  · rw [hcopy, Nat.zero_add, State.copied, State.copied, h.params, h.work]

/-- The response of `CMD17` is used without an event (R203, R204). -/
theorem afterCmd17_readSpends (hp : s.pos = .readOp ops .cmd17) (hc : s.calls = [])
    (hres : s.work.result = some .error) (res : Byte) (addr : Word32) :
    (∃ q, (afterCmd17 ops res addr s).pos = .readOp ops q ∧ q ≠ .release) ∧
      ReadSpends [] s (afterCmd17 ops res addr s) := by
  unfold afterCmd17
  split
  · refine ⟨⟨.token, rfl, nofun⟩, ⟨rfl, rfl, rfl, rfl, rfl⟩, rfl, ?_, ?_, ?_, ?_, fun _ => rfl⟩
    · simp [selCount, State.callSels]
    · simp [xchgCount, State.readXchgsLeft, State.callXchgs, hc, hp, ReadPos.xchgs, State.tokenReads, Config.nTokenPoll]
    · simp [copyCount, wrCount, State.storesLeft, hp, ReadPos.stores]
    · exact (Nat.zero_add _).symm
  · rw [failEntry_readOp _ _ _ _ hp]
    refine ⟨⟨.clean, rfl, nofun⟩, ⟨rfl, rfl, rfl, rfl, rfl⟩, rfl, ?_, ?_, ?_, ?_, fun _ => rfl⟩
    · simp [selCount, State.callSels]
    · simp [xchgCount, State.readXchgsLeft, State.callXchgs, hc, ReadPos.xchgs]
    · simp [copyCount, wrCount, State.storesLeft, ReadPos.stores]
    · simp [copyCount, copied_of_error, hres]

end Command

/-! ## With no command in progress -/

section Events

variable {s t m : State} {ops : ReadOperands} {e : Event}

/-- The event `e` is made between two commands, and leaves `m`. -/
structure Makes (e : Event) (s m : State) : Prop extends SameHost s m where
  before : s.calls = []
  after : m.calls = []
  trace : m.trace = e :: s.trace
  noSel : selCount [e] = 0

/-- An event of `READ_PARTIAL`, and what follows it without an event, pays for itself. -/
theorem Makes.spends {p q : ReadPos} (h : Makes e s m) (hs : s.pos = .readOp ops p) (hq : Quiet m t)
    (hc : t.calls = m.calls) (ht : t.pos = .readOp ops q)
    (hxchg : xchgCount [e] + q.xchgs s.params.copyMode t.tokenReads ≤ p.xchgs s.params.copyMode s.tokenReads)
    (hstores : copyCount [e] + wrCount [e] + q.stores ≤ p.stores) (hcopies : t.copied = copyCount [e] + s.copied)
    (hwr : s.params.copyMode = .delegated → wrCount [e] = 0) : ReadSpends [e] s t where
  toSameHost := h.toSameHost.trans hq.sameHost
  trace := hq.trace.trans h.trace
  sels := by rw [callSels_nil h.before, callSels_nil (hc.trans h.after), h.noSel]
  xchgs := by
    rw [readXchgsLeft_of_pos hs, readXchgsLeft_of_pos ht, callXchgs_nil h.before, callXchgs_nil (hc.trans h.after),
      hq.params, h.params, Nat.zero_add, Nat.zero_add]
    exact hxchg
  stores := by rw [storesLeft_of_pos hs, storesLeft_of_pos ht]; exact hstores
  copies := hcopies
  writes := hwr

/-- `READ_PARTIAL` goes on from `s` to `t` by one event that pays for itself, and is not released yet. -/
def GoesOn (ops : ReadOperands) (s t : State) : Prop :=
  ∃ e q, t.pos = .readOp ops q ∧ q ≠ .release ∧ ReadSpends [e] s t

/-- An event followed by the failure entry (R233). -/
theorem Makes.goesOn_failEntry {p p' : ReadPos} (h : Makes e s m) (hs : s.pos = .readOp ops p)
    (hm : m.pos = .readOp ops p') (f : Failure)
    (hxchg : xchgCount [e] ≤ p.xchgs s.params.copyMode s.tokenReads) (hstores : wrCount [e] ≤ p.stores)
    (hcopy : copyCount [e] = 0) (hcopied : s.copied = 0) (hwr : s.params.copyMode = .delegated → wrCount [e] = 0) :
    GoesOn ops s (failEntry f m) := by
  have hfail := failEntry_readOp f m ops p' hm
  have herr : (failEntry f m).work.result = some .error := by rw [hfail]
  refine ⟨e, .clean, by rw [hfail], nofun,
    h.spends (q := .clean) hs (failEntry_quiet f m) (by simp) (by rw [hfail]) hxchg ?_ ?_ hwr⟩
  · simpa [hcopy, ReadPos.stores] using hstores
  · rw [copied_of_error herr, hcopied, hcopy]

/-- What the byte that ends the detector's loop leads to (R91, R204). -/
theorem tokenDecide_cases (ops : ReadOperands) (rc : Byte) (s : State) :
    tokenDecide ops rc s = gotoRead ops (copyStart s.params.copyMode) s ∨ ∃ f, tokenDecide ops rc s = failEntry f s := by
  unfold tokenDecide
  split
  · exact .inl rfl
  · exact .inr ⟨_, rfl⟩
  · exact .inr ⟨_, rfl⟩

/-- The copy step costs what was set aside for it (R205, R207). -/
theorem xchgs_copyStart (mode : CopyMode) (bc : Nat) : (copyStart mode).xchgs mode bc = packetXchgs mode := by
  cases mode <;> rfl

theorem stores_copyStart (mode : CopyMode) : (copyStart mode).stores ≤ 514 := by
  cases mode <;> decide

theorem copyStart_ne_release (mode : CopyMode) : copyStart mode ≠ .release := by
  cases mode <;> nofun

theorem tokenRead_makes (bc : BitVec 16) (hc : s.calls = []) :
    Makes (.xchg Config.dummy (draw s).1) s (tokenRead bc s) :=
  ⟨by constructor <;> simp [tokenRead], hc, by simp [tokenRead, hc], by simp [tokenRead], rfl⟩

/-- One token read (R204). -/
theorem tokenStep_goesOn (hp : s.pos = .readOp ops .token) (hok : readOk ops .token s = true)
    (h : tokenStep ops s = .next t) : GoesOn ops s t := by
  obtain ⟨-, hc, hi, bc, hbc, hbc1, -⟩ := readOk_token.mp hok
  obtain ⟨hres, -⟩ := readPending_iff.mp hi
  have hm := tokenRead_makes bc hc
  have hpm : (tokenRead bc s).pos = .readOp ops .token := by simpa [tokenRead] using hp
  have hcopied : (tokenRead bc s).copied = s.copied := by simp [State.copied, tokenRead]
  have hleft : s.tokenReads = (tokenRead bc s).tokenReads + 1 := by
    simp only [State.tokenReads, tokenRead, hbc, Option.elim_some]
    bv_omega
  rw [tokenStep_of_some ops hbc] at h
  obtain rfl := Host.Outcome.next.inj h
  split
  · rcases tokenDecide_cases ops (draw s).1 (tokenRead bc s) with hd | ⟨f, hd⟩
    · rw [hd, hm.params]
      refine ⟨_, _, rfl, copyStart_ne_release _, hm.spends hp (by constructor <;> rfl) rfl rfl ?_ ?_ ?_ fun _ => rfl⟩
      · rw [xchgs_copyStart]
        simp only [xchgCount, ReadPos.xchgs, hleft]
        omega
      · exact (Nat.zero_add _).le.trans (stores_copyStart _)
      · exact hcopied.trans (Nat.zero_add _).symm
    · rw [hd]
      refine hm.goesOn_failEntry hp hpm f ?_ (by simp [wrCount]) rfl (copied_of_error hres) fun _ => rfl
      simp only [xchgCount, ReadPos.xchgs, hleft]
      omega
  · refine ⟨_, .token, hpm, nofun, hm.spends hp (.refl _) rfl hpm ?_ le_rfl ?_ fun _ => rfl⟩
    · simp only [xchgCount, ReadPos.xchgs, hleft]
      omega
    · exact hcopied.trans (Nat.zero_add _).symm

/-- The delegated copy (R205). -/
theorem copyStep_goesOn (hp : s.pos = .readOp ops .copy) (hok : readOk ops .copy s = true) :
    GoesOn ops s (copyStep ops s) := by
  obtain ⟨-, hc, hi, hmode⟩ := readOk_copy.mp hok
  obtain ⟨hres, -⟩ := readPending_iff.mp hi
  have hm : Makes (.copy ops.dst ops.ofs ops.cnt) s (copyStep ops s) :=
    ⟨by constructor <;> simp [copyStep], hc, by simp [copyStep, hc], by simp [copyStep], rfl⟩
  refine ⟨_, .clean, rfl, nofun, hm.spends hp (.refl _) rfl rfl le_rfl le_rfl ?_ fun _ => rfl⟩
  rw [copied_of_error hres]
  simp [State.copied, copyStep, hmode, copyCount]

/-- After the event of byte `j` in the inline mode, the next byte or the end of the copy (R207, R208). -/
theorem Makes.goesOn_nextPacket {p : ReadPos} {j : Fin 514} (h : Makes e s m) (hs : s.pos = .readOp ops p)
    (hmode : s.params.copyMode = .inlined)
    (hxchg : xchgCount [e] + (513 - j.val) ≤ p.xchgs .inlined s.tokenReads)
    (hstores : wrCount [e] + (513 - j.val) ≤ p.stores)
    (hcopy : copyCount [e] = 0) (ht : nextPacket ops j m = .next t) : GoesOn ops s t := by
  have hcopied : s.copied = 0 := copied_of_inlined hmode
  have hmode' : m.params.copyMode = .inlined := by rw [h.params, hmode]
  have hnot : s.params.copyMode = .delegated → wrCount [e] = 0 := fun hd => by simp [hmode] at hd
  rcases nextPacket_cases ht with ⟨j', hj, rfl⟩ | ⟨-, ht⟩
  · refine ⟨e, .packet j', rfl, nofun, h.spends hs (by constructor <;> rfl) rfl rfl ?_ ?_ ?_ hnot⟩
    · rw [hmode]
      simp only [ReadPos.xchgs] at hxchg ⊢
      omega
    · simp only [ReadPos.stores, hcopy] at hstores ⊢
      omega
    · rw [copied_of_inlined (by simpa using hmode'), hcopied, hcopy]
  · have h' : Makes e s (gotoRead ops .clean { m with work := { m.work with result := some .ok } }) :=
      ⟨⟨h.params, h.cardType, h.request, h.refused, h.results⟩, h.before, h.after, h.trace, h.noSel⟩
    rcases crcCheck_cases ht with rfl | ⟨computed, received, rfl⟩
    · refine ⟨e, .clean, rfl, nofun, h'.spends (q := .clean) hs (.refl _) rfl rfl ?_ ?_ ?_ hnot⟩
      · rw [hmode]
        exact (Nat.le_add_right ..).trans hxchg
      · rw [hcopy, Nat.zero_add]
        exact (Nat.le_add_right ..).trans hstores
      · rw [copied_of_inlined (by simpa using hmode'), hcopied, hcopy]
    · refine h'.goesOn_failEntry hs rfl _ ?_ ((Nat.le_add_right ..).trans hstores) hcopy hcopied hnot
      rw [hmode]
      exact (Nat.le_add_right ..).trans hxchg

/-- One exchange of the inline copy (R207). -/
theorem packetStep_goesOn {j : Fin 514} (hp : s.pos = .readOp ops (.packet j))
    (hok : readOk ops (.packet j) s = true) (h : packetStep ops j s = .next t) : GoesOn ops s t := by
  obtain ⟨-, hc, -, hmode, -⟩ := readOk_packet.mp hok
  have hm : Makes (.xchg Config.dummy (draw s).1) s (packetRead j s) :=
    ⟨by constructor <;> simp [packetRead], hc, by simp [packetRead, hc], by simp [packetRead], rfl⟩
  rw [packetStep_eq] at h
  split at h
  · obtain rfl := Host.Outcome.next.inj h
    refine ⟨_, .write j, rfl, nofun, hm.spends hp (by constructor <;> rfl) rfl rfl ?_ (Nat.zero_add _).le ?_
      fun _ => rfl⟩
    · simp only [xchgCount, ReadPos.xchgs]
      omega
    · rw [copied_of_inlined hmode, copied_of_inlined (by simpa [packetRead] using hmode)]
      rfl
  · refine hm.goesOn_nextPacket hp hmode ?_ ?_ rfl h
    · simp only [xchgCount, ReadPos.xchgs]
      omega
    · simp only [wrCount, ReadPos.stores]
      omega

/-- One write of the inline copy (R207). -/
theorem writeStep_goesOn {j : Fin 514} (hp : s.pos = .readOp ops (.write j))
    (hok : readOk ops (.write j) s = true) (h : writeStep ops j s = .next t) : GoesOn ops s t := by
  obtain ⟨-, hc, -, hmode, -⟩ := readOk_write.mp hok
  obtain ⟨v, -, h⟩ := need_eq_next.mp h
  have hm : Makes (.wr ops.dst (j.val - ops.ofs.toNat) v) s (dstWrite ops.dst (j.val - ops.ofs.toNat) v s) :=
    ⟨⟨rfl, rfl, rfl, rfl, rfl⟩, hc, hc, rfl, rfl⟩
  refine hm.goesOn_nextPacket hp hmode ?_ ?_ rfl h
  · simp only [xchgCount, ReadPos.xchgs]
    omega
  · simp only [wrCount, ReadPos.stores]
    omega

/-- An event of `READ_PARTIAL` before its cleanup, with no command in progress (R200). -/
theorem readEvent_goesOn {p : ReadPos} (hinv : s.inv = true) (hc : s.calls = []) (hp : s.pos = .readOp ops p)
    (hne : p ≠ .clean) (hne' : p ≠ .release) (h : readEvent ops p s = .next t) : GoesOn ops s t := by
  have hok : readOk ops p s = true := readOk_of_inv hinv hp
  cases p with
  | cmd17 =>
    obtain ⟨-, addr, -, hcall, -⟩ := readOk_cmd17.mp hok
    exact absurd hc (calls_ne_nil_of_calling hcall)
  | token => exact tokenStep_goesOn hp hok h
  | copy =>
    obtain rfl : copyStep ops s = t := Host.Outcome.next.inj h
    exact copyStep_goesOn hp hok
  | packet j => exact packetStep_goesOn hp hok h
  | write j => exact writeStep_goesOn hp hok h
  | clean => exact absurd rfl hne
  | release => exact absurd rfl hne'

end Events

/-! ## From the acceptance to the return -/

/-- No command is in progress but where a read waits for its own (R28, R203). -/
theorem calls_of_readOk {s : State} {ops : ReadOperands} {p : ReadPos} (hok : readOk ops p s = true)
    (hne : p ≠ .cmd17) : s.calls = [] := by
  cases p with
  | cmd17 => exact absurd rfl hne
  | token => exact (readOk_token.mp hok).2.1
  | copy => exact (readOk_copy.mp hok).2.1
  | packet j => exact (readOk_packet.mp hok).2.1
  | write j => exact (readOk_write.mp hok).2.1
  | clean => exact (readOk_clean.mp hok).2.1
  | release => exact (readOk_release.mp hok).2.1

/-- The event due in `READ_PARTIAL`, with no command in progress (R28). -/
theorem step_at_read {s t : State} {ops : ReadOperands} {p : ReadPos} (hl : paramsLegal s.params = true)
    (hr : s.request = none) (hc : s.calls = []) (hp : s.pos = .readOp ops p) (he : readEvent ops p s = .next t)
    (ht : t.inv = true) : step s = .next t := by
  simp [step, fetch, hr, hc, fetchOperation, hp, exec_read_due hl hr hp, he, settle_of_inv ht]

/-- A step of `READ_PARTIAL` with its read command in progress, whose response is used when it returns (R203). -/
theorem read_step_of_call {s : State} {ops : ReadOperands} (hinv : s.inv = true) (hr : s.request = none)
    (hp : s.pos = .readOp ops .cmd17) : ∃ t, step s = .next t ∧ GoesOn ops s t := by
  obtain ⟨c, hc, hw, hd⟩ := call_of_cmd17 hinv hp
  obtain ⟨t, h, hstep, hsels⟩ := step_of_plain_call (callsOk_of_inv hinv) hr hc hw hd
  obtain ⟨e, hspends⟩ := h.readSpends hp hsels
  have hpt : t.pos = .readOp ops .cmd17 := h.pos.trans hp
  by_cases ht : t.calls = []
  · obtain ⟨-, addr, haddr, -, hi⟩ := readOk_cmd17.mp (readOk_of_inv hinv hp)
    obtain ⟨hresult, -⟩ := readPending_iff.mp hi
    obtain ⟨res, hres⟩ := Option.isSome_iff_exists.mp (h.response ht)
    have haddr' : t.work.addr = some addr := by rw [h.work]; exact haddr
    have hresult' : t.work.result = some .error := by rw [h.work]; exact hresult
    obtain ⟨⟨q, hq, hne⟩, hon⟩ := afterCmd17_readSpends hpt ht hresult' res addr
    refine ⟨_, ?_, e, q, hq, hne, hspends.trans hon⟩
    rw [hstep]
    simp [operationReturn, ht, hpt, readReturn, hres, haddr']
  · exact ⟨t, hstep.trans (operationReturn_of_call ht), e, .cmd17, hpt, nofun, hspends⟩

/-- Every step of a read before its cleanup goes on with it and pays for one event. -/
theorem read_step {s : State} {ops : ReadOperands} {p : ReadPos} (hinv : s.inv = true)
    (hl : paramsLegal s.params = true) (hr : s.request = none) (hp : s.pos = .readOp ops p) (hne : p ≠ .clean)
    (hne' : p ≠ .release) : ∃ t, step s = .next t ∧ GoesOn ops s t := by
  by_cases hcmd : p = .cmd17
  · subst hcmd
    exact read_step_of_call hinv hr hp
  · have hc : s.calls = [] := calls_of_readOk (readOk_of_inv hinv hp) hcmd
    obtain ⟨t, he, hi⟩ := readEvent_inv hinv hc hp
    exact ⟨t, step_at_read hl hr hc hp he hi, readEvent_goesOn hinv hc hp hne hne' he⟩

theorem eventCount_eq_one (e : Event) : selCount [e] + xchgCount [e] + (copyCount [e] + wrCount [e]) = 1 := by
  cases e <;> rfl

/-- A read reaches its cleanup, one event a step, by induction on the events left to it. -/
theorem read_reaches_cleanup {s : State} {ops : ReadOperands} {p : ReadPos} (hinv : s.inv = true)
    (hl : paramsLegal s.params = true) (hr : s.request = none) (hp : s.pos = .readOp ops p) (hne : p ≠ .release) :
    ∃ n t evs, runSteps n s = .next t ∧ t.inv = true ∧ t.pos = .readOp ops .clean ∧ ReadSpends evs s t := by
  induction hleft : s.callSels + s.readXchgsLeft + s.storesLeft using Nat.strong_induction_on generalizing s p with
  | _ left ih =>
    by_cases hclean : p = .clean
    · exact ⟨0, s, [], rfl, hinv, by rw [hp, hclean], .refl s⟩
    · obtain ⟨t, hstep, e, q, hq, hne', hs⟩ := read_step hinv hl hr hp hclean hne
      have hone := eventCount_eq_one e
      have hsel := hs.sels
      have hxchg := hs.xchgs
      have hstores := hs.stores
      obtain ⟨n, u, evs, hu, huinv, hpos, hspent⟩ :=
        ih (t.callSels + t.readXchgsLeft + t.storesLeft) (by omega) (stepKeepsTheInvariant s t hinv hstep)
          (by rw [hs.params]; exact hl) (hs.request.trans hr) hq hne' rfl
      exact ⟨n + 1, u, evs ++ [e], by rw [runSteps_of_step hstep, hu], huinv, hpos, hs.trans hspent⟩

/-- From its cleanup `READ_PARTIAL` ends in two steps, and returns `RESULT` (R125, R209). -/
theorem read_ends {s : State} {ops : ReadOperands} (hinv : s.inv = true) (hl : paramsLegal s.params = true)
    (hr : s.request = none) (hp : s.pos = .readOp ops .clean) :
    s.calls = [] ∧ ∃ t b r, s.work.result = some r ∧ runSteps 2 s = .next t ∧ t.pos = .idle ∧ t.calls = [] ∧
      t.sel = false ∧ t.refused = s.refused ∧ t.cardType = s.cardType ∧
      t.trace = .xchg Config.dummy b :: .sel false :: s.trace ∧ t.results = .read r :: s.results ∧
      (t.failure = none ↔ r = .ok) := by
  obtain ⟨hw, hc, hd⟩ := readOk_clean.mp (readOk_of_inv hinv hp)
  obtain ⟨r, hres, hlabel⟩ := readDecided_iff.mp hd
  have hb : Between s := .of_inv hinv hc
  have hrel : (gotoRead ops .release (select false s)).inv = true :=
    Between.inv_read (p := .release) ⟨hc, hb.cardType, hb.dest⟩ rfl (readOk_release.mpr ⟨hw, hc, hd⟩)
  have hstep := step_at_read hl hr hc hp rfl hrel
  obtain ⟨t, ht, hend⟩ := readEvent_inv hrel hc rfl
  have hstep' := step_at_read (s := gotoRead ops .release (select false s)) hl hr hc rfl ht hend
  simp only [readEvent, readRelease, gotoRead_work, select_work, hres, need_some] at ht
  obtain rfl := Host.Outcome.next.inj ht
  refine ⟨hc, _, (draw (gotoRead ops .release (select false s))).1, r, hres,
    by rw [runSteps_of_step hstep, runSteps_one hstep'], rfl, ?_, ?_, ?_, ?_, ?_, ?_, ?_⟩
  · simp [hc]
  · simp
  · simp
  · simp
  · simp
  · simp
  · have : r = .ok ↔ ¬ r = .error := by cases r <;> simp
    rw [this, ← hlabel]
    simp

/-- The acceptance of a read is a step of its read command (R200). -/
theorem step_accepted_read {s : State} {dst : Handle} {blk : Word32} {ofs cnt : BitVec 10} (hinv : s.inv = true)
    (hp : s.pos = .idle) (hc : s.calls = []) (hr : s.request = some ⟨0b10#2, dst, blk, ofs, cnt⟩)
    (hl : paramsLegal s.params = true) (hw : windowOk ofs cnt = true) :
    step s = step (startRead ⟨dst, blk, ofs, cnt⟩ s) := by
  have hcalls := startRead_calls ⟨dst, blk, ofs, cnt⟩ s
  have hstart := callsOk_of_inv (startRead_inv (ops := ⟨dst, blk, ofs, cnt⟩) hinv hc hw)
  obtain ⟨i, hi, hexec⟩ := fetch_at_call rfl hcalls (commandFrame_of_callsOk hstart hcalls)
  rw [step_of_request (i := .readPartial dst blk ofs cnt) hr rfl, exec_read_idle hp hc hl, acceptRead, if_pos hw, step,
    hi]
  simp only [hexec]

/-- Runs whose first step is the same are the same. -/
theorem runSteps_congr {s t : State} (h : step s = step t) (n : Nat) : runSteps (n + 1) s = runSteps (n + 1) t := by
  have hcore : Host.Core.step Sys2Proof.core s = Host.Core.step Sys2Proof.core t := h
  simp only [runSteps, Host.Core.run, hcore]
  rfl

/-- What an accepted read can still cost: the read command, the token reads and the packet (R213, R281). -/
theorem readXchgsLeft_startRead {s : State} (hc : s.calls = []) (ops : ReadOperands) :
    (startRead ops s).readXchgsLeft = 30018 + packetXchgs s.params.copyMode := by
  simp [State.readXchgsLeft, State.callXchgs, hc, callOf, isApp, codeCmd17, CallPos.xchgs, ReadPos.xchgs]
  omega

theorem callSels_startRead {s : State} (hc : s.calls = []) (ops : ReadOperands) : (startRead ops s).callSels = 2 := by
  simp [State.callSels, hc, callOf, isApp, codeCmd17, CallPos.sels]

/-- Settles O59: the acceptance fixes the budget, the run to the cleanup spends it, and two steps end the operation. -/
theorem readPartialAlwaysCompletes : Obligations.ReadPartialAlwaysCompletes := by
  intro s dst blk ofs cnt hinv hp hc hr hl hw
  have hstart : (startRead ⟨dst, blk, ofs, cnt⟩ s).inv = true := startRead_inv hinv hc hw
  have hstep := step_accepted_read hinv hp hc hr hl hw
  obtain ⟨n, t, evs, hn, htinv, htpos, hspent⟩ := read_reaches_cleanup hstart hl rfl rfl nofun
  obtain ⟨htc, u, b, r, hres, hu, hidle, hcalls, hsel, hrefused, hcard, htrace, hresults, hlabel⟩ :=
    read_ends htinv (by rw [hspent.params]; exact hl) hspent.request htpos
  have hsels := hspent.sels
  have hxchgs := hspent.xchgs
  have hcopies := hspent.copies
  rw [callSels_startRead hc, callSels_nil htc] at hsels
  rw [readXchgsLeft_startRead hc] at hxchgs
  rw [copied_of_error (s := startRead _ s) rfl, State.copied, hspent.params, hres, startRead_params] at hcopies
  refine ⟨n + 2, u, b, evs, r, ?_, hidle, hcalls, hsel, hrefused.trans hspent.refused, hcard.trans hspent.cardType,
    ?_, by omega, ?_, ?_, hlabel, fun hmode => ⟨hspent.writes hmode, ?_, ?_⟩, fun hmode => ?_⟩
  · exact (runSteps_congr hstep (n + 1)).trans ((runSteps_add hn 2).trans hu)
  · rw [htrace, hspent.trace]
    rfl
  · have := packetXchgs_le s.params.copyMode
    omega
  · rw [hresults, hspent.results]
    rfl
  · simpa [hmode] using hcopies.symm
  · simp only [hmode, packetXchgs] at hxchgs
    omega
  · simpa [hmode] using hcopies.symm

end Sys2Proof.Machine
end

section
/-! PROOF. The first events of a card command, what it leaves unchanged, and the releases of the two operations, their
next states written out (R120 to R122, R125, R172, R209). -/

namespace Sys2Proof.Machine

/-! ## The card commands -/

/-- Settles O19: the dispatcher's frame. -/
theorem cardCommandFrame : Obligations.CardCommandFrame := by
  intro i s t hi h
  obtain ⟨⟨code, arg⟩, hi⟩ := Option.isSome_iff_exists.mp hi
  have hf := exec_command_frame hi h
  exact ⟨hf.params, hf.cardType, hf.pos, hf.request, hf.refused, hf.failure, hf.results, hf.work,
    fun a => by rw [hf.dest], hf.bus.imp (·.1) fun ⟨e, he, _⟩ => ⟨e, he⟩⟩

/-- Settles O10: at its own call a command makes the bracketing event due. -/
theorem commandBracketsItsFrame : Obligations.CommandBracketsItsFrame := by
  rintro i code arg s w rest hi rfl
  have bracket {k : Fin 4} (hc : s.calls = ⟨frameOf s.params.crc7Mode code arg, .bracket k⟩ :: rest) :
      exec i s = .next (bracketStep (frameOf s.params.crc7Mode code arg) k rest s) := by
    simp only [exec_at_call hi hc, dispatchEvent, hc]
  refine ⟨fun hc => bracket hc, fun hc => ?_, fun hc => bracket hc, fun hc => ?_⟩
  · rw [bracket hc, bracketStep, bracketEvent, dummyExchange, exchange_snd]
    rfl
  · rw [bracket hc, bracketStep, bracketEvent, dummyExchange, exchange_snd]
    rfl

/-- Of the eight commands only `ACMD41` has the tag bit (R81, R82). -/
theorem isApp_of_command {i : Instr} {code : Byte} {arg : Word32} (h : commandOf i = some (code, arg)) :
    isApp code = decide (code = 0xE9#8) := by
  cases i with
  | acmd41 hcs => cases hcs <;> cases h <;> rfl
  | _ => cases h <;> rfl

/-- Settles O13: from `IDLE` the command is entered, and its first event is the bracketing's or its prefix's. -/
theorem commandBeginsWithDeselect : Obligations.CommandBeginsWithDeselect := by
  intro i code arg s hi hp hc
  rw [exec_of_command hi, dispatch_from_idle hc hp, dispatchEvent, enterCall_calls, hc, callOf, isApp_of_command hi]
  by_cases happ : code = 0xE9#8
  · simp only [happ, decide_true, if_true]
    rfl
  · simp only [happ, decide_false, if_false]
    rfl

/-- The code and the argument of `ACMD41` (R85). -/
theorem commandOf_acmd41 (hcs : Bool) : commandOf (.acmd41 hcs) = some (0xE9#8, acmd41Arg hcs) := by
  cases hcs <;> rfl

/-- Settles O14: the event due is the first of the prefix. -/
theorem applicationCommandBeginsItsPrefix : Obligations.ApplicationCommandBeginsItsPrefix := by
  rintro hcs s w rest rfl hc
  rw [exec_at_call (commandOf_acmd41 hcs) hc, dispatchEvent, hc]
  rfl

theorem prefixAborts_iff {res : Byte} : prefixAborts res = true ↔ 1 < res.toNat := by
  simp [prefixAborts, BitVec.lt_def]

/-- Settles O15: `prefixReturn` looks at the response alone. -/
theorem prefixResponseDecides : Obligations.PrefixResponseDecides := by
  intro s w rest res hc hres
  have hret : prefixReturn s = .next { s with calls := if prefixAborts res then rest else ⟨w, .bracket 0⟩ :: rest } := by
    simp only [prefixReturn, hc, hres, need_some]
  rw [settle, hret, andThen_next]
  refine ⟨fun habort => ?_, fun hgo => ?_⟩
  · rw [if_pos (prefixAborts_iff.mpr habort)]
  · rw [if_neg (mt prefixAborts_iff.mp (Nat.not_lt.mpr hgo))]
    rfl

/-! ## The releases -/

/-- An `INITIALIZE` with an event due makes it (R160). -/
theorem exec_initialize_due {s : State} {p : InitPos} (hl : paramsLegal s.params = true) (hr : s.request = none)
    (hp : s.pos = .initOp p) : exec .hostInitialize s = initEvent p s := by
  simp [exec, execInitialize, underLegalParams, hl, hr, hp]

/-- Settles O30: the cleanup stores `TY`, and the release returns its `STATUS`. -/
theorem initializeStoresAndReleases : Obligations.InitializeStoresAndReleases := by
  intro s ty hl hr _ hty
  refine ⟨fun hp => ?_, fun hp => ?_⟩
  · rw [exec_initialize_due hl hr hp, initEvent, initClean, hty, need_some]
    rfl
  · rw [exec_initialize_due hl hr hp, initEvent, initRelease, hty, need_some, dummyExchange, exchange_snd]
    simp [returnToHost, statusOf, Config.dummy]

/-- The last event of a read, with `RESULT` written (R209). -/
theorem readRelease_of_result {s : State} {r : ReadResult} (ops : ReadOperands) (h : s.work.result = some r) :
    readRelease ops s = .next (returnToHost (.read r) (destAfter ops r (dummyExchange s))) := by
  rw [readRelease, h, need_some]

/-- Settles O42: after `ERROR` the memory is the one with free values written over the window. -/
theorem readReleasesAndReturns : Obligations.ReadReleasesAndReturns := by
  intro s dst blk ofs cnt hl hr _
  refine ⟨fun hp => ?_, fun hp hres => ?_, fun hp hres => ?_⟩
  · rw [exec_read_due hl hr hp, readEvent]
    rfl
  · rw [exec_read_due hl hr hp, readEvent, readRelease_of_result _ hres, dummyExchange, exchange_snd]
    simp [returnToHost, destAfter, hres, Config.dummy]
  · refine ⟨s.dest.writeList (dst * 512) (freeBytes (draw s).2.free cnt.toNat), ?_, fun i hi => ?_, fun a ha => ?_⟩
    · rw [exec_read_due hl hr hp, readEvent, readRelease_of_result _ hres, dummyExchange, exchange_snd]
      simp [returnToHost, destAfter, scrambleWindow, destAddr, hres, Config.dummy]
    · rw [Memory.read_writeList_inside _ _ _ _ (by simpa [freeBytes] using hi)]
      simp [freeBytes]
    · exact Memory.read_writeList_outside _ _ _ _ (by simpa [freeBytes] using ha)

end Sys2Proof.Machine
end

section
/-! PROOF. Whole dispatches: the bracketing, the frame and the response poll as runs, and the prefix law (R120 to R127). -/

namespace Sys2Proof.Machine

/-- A run of one step is the step, whatever it answers. -/
theorem runSteps_one_eq (s : State) : runSteps 1 s = step s := by
  have hcore : Host.Core.step Sys2Proof.core s = step s := rfl
  simp only [runSteps, Host.Core.run, hcore]
  cases step s <;> rfl

section Command

variable {i : Instr} {code : Byte} {arg : Word32} {s : State} {rest : List Call}

/-! ## One step of a command in progress -/

/-- With a card command innermost and no request offered, the step is its event (R28). -/
theorem step_of_command {p : CallPos} (hi : commandOf i = some (code, arg)) (hr : s.request = none)
    (hc : s.calls = ⟨frameOf s.params.crc7Mode code arg, p⟩ :: rest) : step s = andThen (dispatchEvent s) settle := by
  obtain ⟨-, -, command, -⟩ := stepRunsTheDecodedInstruction s
  rw [← exec_at_call hi hc]
  refine command _ rest i hr hc ?_
  rw [decodeFrame_frameOf, decodeCommand_of_command hi]

theorem step_bracket {k : Fin 4} (hi : commandOf i = some (code, arg)) (hr : s.request = none)
    (hc : s.calls = ⟨frameOf s.params.crc7Mode code arg, .bracket k⟩ :: rest) :
    step s = .next (bracketStep (frameOf s.params.crc7Mode code arg) k rest s) := by
  simp only [step_of_command hi hr hc, dispatchEvent, hc, andThen_next]
  exact settle_of_call rfl (afterBracket_ne_prefixWait k)

theorem step_frame_byte {k : Fin 6} (hi : commandOf i = some (code, arg)) (hr : s.request = none)
    (hc : s.calls = ⟨frameOf s.params.crc7Mode code arg, .frame k⟩ :: rest) :
    step s = .next (frameStep (frameOf s.params.crc7Mode code arg) k rest s) := by
  obtain ⟨c, hcalls, hne⟩ := frameStep_calls (frameOf s.params.crc7Mode code arg) k rest s
  simp only [step_of_command hi hr hc, dispatchEvent, hc, andThen_next]
  exact settle_of_call hcalls hne

theorem step_poll {n : Byte} (hi : commandOf i = some (code, arg)) (hr : s.request = none)
    (hc : s.calls = ⟨frameOf s.params.crc7Mode code arg, .poll⟩ :: rest) (hn : s.work.n = some n) :
    step s = settle (pollRead n (if pollEnds (draw s).1 (n - 1#8) then rest else s.calls) s) := by
  simp only [step_of_command hi hr hc, dispatchEvent, hc, pollStep_of_some hn, andThen_next]

/-! ## The three parts of a dispatch -/

/-- An exchange takes the first of the bytes listed (R10). -/
theorem exchange_of_cons {b : Byte} {l : List Byte} (o : Byte) (h : s.incoming = b :: l) :
    (exchange o s).2 = { s with incoming := l, trace := .xchg o b :: s.trace } := by
  rw [exchange_snd, draw_of_cons s b l h]

/-- The bracketing takes four steps (R122). -/
theorem bracketing_runs {b0 b1 : Byte} {tl : List Byte} (hi : commandOf i = some (code, arg)) (hr : s.request = none)
    (hc : s.calls = ⟨frameOf s.params.crc7Mode code arg, .bracket 0⟩ :: rest) (hin : s.incoming = b0 :: b1 :: tl) :
    runSteps 4 s = .next { s with
      sel := true
      incoming := tl
      calls := ⟨frameOf s.params.crc7Mode code arg, .frame 0⟩ :: rest
      trace := bracketEvents b0 b1 ++ s.trace } := by
  let w := frameOf s.params.crc7Mode code arg
  let s1 : State := { s with sel := false, trace := .sel false :: s.trace, calls := ⟨w, .bracket 1⟩ :: rest }
  let s2 : State :=
    { s1 with
      incoming := b1 :: tl, trace := .xchg Config.dummy b0 :: s1.trace, calls := ⟨w, .bracket 2⟩ :: rest }
  let s3 : State := { s2 with sel := true, trace := .sel true :: s2.trace, calls := ⟨w, .bracket 3⟩ :: rest }
  have h0 : step s = .next s1 := step_bracket hi hr hc
  have h1 : step s1 = .next s2 := by
    rw [step_bracket (s := s1) hi hr rfl, bracketStep, bracketEvent, dummyExchange, exchange_of_cons (s := s1) _ hin]
    rfl
  have h2 : step s2 = .next s3 := step_bracket (s := s2) hi hr rfl
  rw [runSteps_of_step h0, runSteps_of_step h1, runSteps_of_step h2, runSteps_one_eq,
    step_bracket (s := s3) hi hr rfl, bracketStep, bracketEvent, dummyExchange, exchange_of_cons (s := s3) _ rfl]
  rfl

/-- The bytes of a frame from `Fk` on take a step each, and the poll is due with ten attempts (R123, R124). -/
theorem frame_runs {k : Fin 6} {g tl : List Byte} (hi : commandOf i = some (code, arg)) (hr : s.request = none)
    (hc : s.calls = ⟨frameOf s.params.crc7Mode code arg, .frame k⟩ :: rest) (hg : k.val + g.length = 6)
    (hin : s.incoming = g ++ tl) :
    runSteps g.length s = .next { s with
      incoming := tl
      calls := ⟨frameOf s.params.crc7Mode code arg, .poll⟩ :: rest
      work := { s.work with n := some 10#8 }
      trace := (List.zipWith Event.xchg ((frameBytes (frameOf s.params.crc7Mode code arg)).drop k.val) g).reverse ++
        s.trace } := by
  induction g generalizing s k with
  | nil =>
    simp only [List.length_nil] at hg
    omega
  | cons b g ih =>
    have hstep := step_frame_byte hi hr hc
    have hdrop : (frameBytes (frameOf s.params.crc7Mode code arg)).drop k.val =
        frameByte (frameOf s.params.crc7Mode code arg) k ::
          (frameBytes (frameOf s.params.crc7Mode code arg)).drop (k.val + 1) := by
      match k with
      | 0 | 1 | 2 | 3 | 4 | 5 => rfl
    rw [List.length_cons] at hg
    by_cases hk : k.val + 1 < 6
    · let s1 : State :=
        { s with
          incoming := g ++ tl
          trace := .xchg (frameByte (frameOf s.params.crc7Mode code arg) k) b :: s.trace
          calls := ⟨frameOf s.params.crc7Mode code arg, .frame ⟨k.val + 1, hk⟩⟩ :: rest }
      have h1 : step s = .next s1 := by
        rw [hstep, frameStep_of_lt hk, exchange_of_cons _ hin]
        rfl
      have hrun := ih (s := s1) (k := ⟨k.val + 1, hk⟩) hr rfl (by simp only; omega) rfl
      rw [List.length_cons, runSteps_of_step h1, hrun, hdrop]
      simp [s1]
    · obtain rfl : g = [] := List.length_eq_zero_iff.mp (by omega)
      rw [frameStep_of_last hk, exchange_of_cons _ hin] at hstep
      rw [List.length_singleton, runSteps_one_eq, hstep, hdrop]
      simp [Config.nRespPoll]

/-- A response poll with `n` attempts left takes a step for each byte it reads; the last of them resolves the return
(R124). -/
theorem poll_runs {n : Byte} {polls tl : List Byte} (hi : commandOf i = some (code, arg)) (hr : s.request = none)
    (hc : s.calls = ⟨frameOf s.params.crc7Mode code arg, .poll⟩ :: rest) (hn : s.work.n = some n)
    (hlen : polls.length ≤ n.toNat) (hbusy : polls.dropLast.all noResponse = true) {v : Byte}
    (hlast : polls.getLast? = some v) (hend : noResponse v = false ∨ polls.length = n.toNat)
    (hin : s.incoming = polls ++ tl) :
    runSteps polls.length s = settle { s with
      incoming := tl
      calls := rest
      work := { s.work with res := some v, n := some (n - BitVec.ofNat 8 polls.length) }
      trace := dummyEvents polls ++ s.trace } := by
  induction polls generalizing s n with
  | nil => simp at hlast
  | cons b polls ih =>
    have hdraw := draw_of_cons s b _ hin
    have hstep := step_poll hi hr hc hn
    rw [pollRead, exchange_of_cons _ hin, hdraw] at hstep
    cases polls with
    | nil =>
      obtain rfl : b = v := by simpa using hlast
      have hdone : pollEnds b (n - 1#8) = true := pollEnds_iff.mpr (hend.imp_right fun h1 => by
        simp only [List.length_singleton] at h1
        bv_omega)
      rw [List.length_singleton, runSteps_one_eq, hstep, if_pos hdone]
      simp [dummyEvents]
    | cons c polls =>
      obtain ⟨hb, hbusy⟩ : noResponse b = true ∧ (c :: polls).dropLast.all noResponse = true := by
        simpa using hbusy
      simp only [List.length_cons] at hlen hend
      have hgo : ¬ pollEnds b (n - 1#8) = true := by
        rw [pollEnds_iff]
        rintro (h | rfl)
        · exact absurd (hb.symm.trans h) (by decide)
        · simp at hlen
      let s1 : State :=
        { s with
          incoming := c :: polls ++ tl
          work := { s.work with res := some b, n := some (n - 1#8) }
          trace := .xchg Config.dummy b :: s.trace
          calls := ⟨frameOf s.params.crc7Mode code arg, .poll⟩ :: rest }
      have h1 : step s = .next s1 := by
        rw [hstep, if_neg hgo, hc]
        exact settle_of_call rfl (by simp)
      have hleft : (n - 1#8).toNat + 1 = n.toNat := by bv_omega
      have hcount : n - 1#8 - BitVec.ofNat 8 (c :: polls).length = n - BitVec.ofNat 8 (b :: c :: polls).length := by
        simp only [List.length_cons]
        bv_omega
      have hrun := ih (s := s1) (n := n - 1#8) hr rfl rfl (by simp only [List.length_cons]; omega) hbusy
        (by simpa using hlast) (hend.imp_right fun h => by simp only [List.length_cons]; omega) rfl
      rw [List.length_cons, runSteps_of_step h1, hrun, hcount]
      simp [s1, dummyEvents]

/-! ## A whole dispatch -/

/-- The bytes of a response poll, taken apart (R124). -/
theorem pollBytes_iff {bytes : List Byte} : pollBytes bytes = true ↔
    ∃ v, bytes.getLast? = some v ∧ bytes.length ≤ 10 ∧ bytes.dropLast.all noResponse = true ∧
      (noResponse v = false ∨ bytes.length = 10) := by
  unfold pollBytes
  cases bytes.getLast? <;> simp [and_assoc]

/-- The state at the return of a whole dispatch of the frame `w`, with `rest` left in progress: `b0`, `b1` and `g` are
received while the frame is sent, `polls` by the poll, and `tl` is still to come (R122 to R124). -/
def dispatched (w : Frame) (b0 b1 : Byte) (g polls tl : List Byte) (rest : List Call) (s : State) : State :=
  { s with
    sel := true
    calls := rest
    incoming := tl
    work := { s.work with res := polls.getLast?, n := some (10#8 - BitVec.ofNat 8 polls.length) }
    trace := dummyEvents polls ++ frameEvents w g ++ bracketEvents b0 b1 ++ s.trace }

/-- A whole dispatch from its bracketing on: `4 + 6 + k` steps, of which the last resolves the return (R122 to R124,
R126). -/
theorem command_runs {b0 b1 : Byte} {g polls tl : List Byte} (hi : commandOf i = some (code, arg))
    (hr : s.request = none) (hc : s.calls = ⟨frameOf s.params.crc7Mode code arg, .bracket 0⟩ :: rest)
    (hg : g.length = 6) (hpolls : pollBytes polls = true) (hin : s.incoming = [b0, b1] ++ g ++ polls ++ tl) :
    runSteps (10 + polls.length) s =
      settle (dispatched (frameOf s.params.crc7Mode code arg) b0 b1 g polls tl rest s) := by
  obtain ⟨v, hlast, hlen, hbusy, hend⟩ := pollBytes_iff.mp hpolls
  let w := frameOf s.params.crc7Mode code arg
  let s1 : State :=
    { s with
      sel := true
      incoming := g ++ (polls ++ tl)
      calls := ⟨w, .frame 0⟩ :: rest
      trace := bracketEvents b0 b1 ++ s.trace }
  let s2 : State :=
    { s1 with
      incoming := polls ++ tl
      calls := ⟨w, .poll⟩ :: rest
      work := { s1.work with n := some 10#8 }
      trace := frameEvents w g ++ s1.trace }
  have h1 : runSteps 4 s = .next s1 := bracketing_runs hi hr hc (by simpa using hin)
  have h2 : runSteps 6 s1 = .next s2 := hg ▸ frame_runs (s := s1) (k := 0) hi hr rfl (by simpa using hg) rfl
  have h3 := poll_runs (s := s2) hi hr rfl rfl hlen hbusy hlast hend rfl
  rw [show 10 + polls.length = 4 + (6 + polls.length) by omega, runSteps_add h1, runSteps_add h2, h3]
  simp [s2, s1, w, dispatched, hlast]

end Command

/-- Settles O16: a command without prefix is called with its bracketing due. -/
theorem plainCommandRunsToItsResponse : Obligations.PlainCommandRunsToItsResponse := by
  rintro i code arg s u b0 b1 g polls tl rest hi happ hr hc hg hpolls hin rfl
  have hc' : s.calls = ⟨frameOf s.params.crc7Mode code arg, .bracket 0⟩ :: rest := by
    simpa [callOf, happ] using hc
  exact ⟨command_runs hi hr hc' hg hpolls hin, fun h => settle_of_no_call h, fun h hp => settle_idle h hp⟩

/-! ## The prefix law -/

section Prefix

variable {hcs : Bool} {s : State} {rest : List Call}

/-- `ACMD41` waiting for the whole of its `CMD55`, which is due (R121). -/
def prefixEntered (hcs : Bool) (rest : List Call) (s : State) : State :=
  { s with
    calls := ⟨frameOf s.params.crc7Mode 0x77#8 0#32, .bracket 0⟩ ::
      ⟨frameOf s.params.crc7Mode 0xE9#8 (acmd41Arg hcs), .prefixWait⟩ :: rest }

/-- The first step of `ACMD41` is that of the `CMD55` it waits for (R121). -/
theorem step_of_prefix (hr : s.request = none)
    (hc : s.calls = callOf s.params.crc7Mode 0xE9#8 (acmd41Arg hcs) :: rest) :
    step s = step (prefixEntered hcs rest s) := by
  have hdue : s.calls = ⟨frameOf s.params.crc7Mode 0xE9#8 (acmd41Arg hcs), .prefixDue⟩ :: rest := hc
  have hevent : dispatchEvent s = dispatchEvent (prefixEntered hcs rest s) := by
    simp only [dispatchEvent, hdue]
    rfl
  rw [step_of_command (commandOf_acmd41 hcs) hr hdue, hevent,
    step_of_command (i := .cmd55) (s := prefixEntered hcs rest s) rfl hr rfl]

/-- The whole `CMD55` dispatch of an `ACMD41`, after which its response is looked at (R121, R126). -/
theorem prefix_runs {b0 b1 : Byte} {g polls tl : List Byte} (hr : s.request = none)
    (hc : s.calls = callOf s.params.crc7Mode 0xE9#8 (acmd41Arg hcs) :: rest)
    (hg : g.length = 6) (hpolls : pollBytes polls = true) (hin : s.incoming = [b0, b1] ++ g ++ polls ++ tl) :
    runSteps (10 + polls.length) s =
      settle (dispatched (frameOf s.params.crc7Mode 0x77#8 0#32) b0 b1 g polls tl
        (⟨frameOf s.params.crc7Mode 0xE9#8 (acmd41Arg hcs), .prefixWait⟩ :: rest) s) := by
  have hrun := runSteps_congr (step_of_prefix hr hc) (9 + polls.length)
  rw [show 9 + polls.length + 1 = 10 + polls.length by omega] at hrun
  exact hrun.trans (command_runs (i := .cmd55) (s := prefixEntered hcs rest s) rfl hr rfl hg hpolls hin)

end Prefix

/-- Settles O17: a response above 0x01 leaves the operation below to go on. -/
theorem rejectedPrefixSendsOneFrame : Obligations.RejectedPrefixSendsOneFrame := by
  rintro hcs s u b0 b1 v g polls tl rest hr hc hg hpolls hlast hv hin rfl
  refine ⟨?_, fun hrest hp => ?_⟩
  · rw [prefix_runs hr hc hg hpolls hin, (prefixResponseDecides _ _ rest v rfl hlast).1 hv, ← hlast]
    rfl
  · simp only [operationReturn, hrest, hp]

/-- Settles O18: a response of at most 0x01 leaves a dispatch of the command's own frame. -/
theorem acceptedPrefixSendsBothFrames : Obligations.AcceptedPrefixSendsBothFrames := by
  rintro hcs s u a0 a1 v b0 b1 g1 polls1 g2 polls2 tl rest hr hc hg1 hpolls1 hlast hv hg2 hpolls2 hin rfl
  refine ⟨?_, fun h => settle_of_no_call h, fun h hp => settle_idle h hp⟩
  let w := frameOf s.params.crc7Mode 0xE9#8 (acmd41Arg hcs)
  let s1 : State :=
    dispatched (frameOf s.params.crc7Mode 0x77#8 0#32) a0 a1 g1 polls1 ([b0, b1] ++ g2 ++ polls2 ++ tl)
      (⟨w, .bracket 0⟩ :: rest) s
  have h1 : runSteps (10 + polls1.length) s = .next s1 :=
    (prefix_runs hr hc hg1 hpolls1 hin).trans ((prefixResponseDecides _ _ rest v rfl hlast).2 hv)
  have h2 := command_runs (s := s1) (commandOf_acmd41 hcs) hr rfl hg2 hpolls2 rfl
  rw [show 20 + polls1.length + polls2.length = 10 + polls1.length + (10 + polls2.length) by omega, runSteps_add h1, h2]
  simp [s1, dispatched]

end Sys2Proof.Machine
end

section
/-! PROOF. The use `INITIALIZE` makes of each response, its next states written out (R163 to R171). -/

namespace Sys2Proof.Machine

/-- The outermost command in progress, by its frame (R28). -/
theorem calling_iff {code : Byte} {arg : Word32} {s : State} : calling code arg s = true ↔
    (s.calls.getLast?).map (·.frame) = some (frameOf s.params.crc7Mode code arg) := by
  unfold calling
  cases s.calls.getLast? <;> simp

/-- When the last command has returned to `INITIALIZE`, its response is used (R28). -/
theorem settle_at_init {s : State} {p : InitPos} (hp : s.pos = .initOp p) (hc : s.calls = []) :
    settle s = initReturn p s := by
  rw [settle_of_no_call hc, operationReturn, hc, hp]

/-- With none in progress, the command called is the only one (R120). -/
theorem callFromInit_of_no_call {s : State} (hc : s.calls = []) (p : InitPos) (code : Byte) (arg : Word32) :
    callFromInit p code arg s =
      { s with pos := .initOp p, calls := [callOf s.params.crc7Mode code arg] } := by
  simp [callFromInit, enterCall, gotoInit, hc]

/-- A poll command called again leaves the position as it was (R166, R170). -/
theorem callFromInit_again {s : State} {p : InitPos} (hp : s.pos = .initOp p) (hc : s.calls = []) (code : Byte)
    (arg : Word32) : callFromInit p code arg s = { s with calls := [callOf s.params.crc7Mode code arg] } := by
  rw [callFromInit_of_no_call hc, ← hp]

/-! ## Reset and version probe -/

/-- Settles O22: the invariant names the command, and `afterCmd0` looks at the response alone. -/
theorem resetResponseDecides : Obligations.ResetResponseDecides := by
  refine ⟨fun s hinv hp => calling_iff.mp (initOk_cmd0.mp (initOk_of_inv hinv hp)).1, fun s v hp hc hres => ?_⟩
  rw [settle_at_init hp hc, initReturn, hres, need_some, afterCmd0]
  refine ⟨fun hv => ?_, fun hv => ?_⟩
  · rw [if_pos hv, callFromInit_of_no_call hc]
    rfl
  · rw [if_neg hv, failEntry_initOp _ _ _ hp, hc]

/-- Settles O23: the invariant names the command, and `afterCmd8` looks at the response alone. -/
theorem versionProbeDecides : Obligations.VersionProbeDecides := by
  refine ⟨fun s hinv hp => calling_iff.mp (initOk_cmd8.mp (initOk_of_inv hinv hp)).1, fun s v hp hc hres => ?_⟩
  rw [settle_at_init hp hc, initReturn, hres, need_some, afterCmd8]
  refine ⟨fun hv => ?_, fun hv => ?_⟩
  · rw [if_pos hv]
    rfl
  · rw [if_neg hv, callFromInit_of_no_call hc]
    rfl

/-! ## The idle-exit polls -/

/-- 0x00 with attempts left ends the poll (R166, R170). -/
theorem pollTurn_success {tmr : BitVec 16} (h : tmr ≠ 0#16) : pollTurn 0x00#8 tmr = (tmr, .success) := by
  simp [pollTurn, h]

/-- Any other result with more than one attempt left leaves one attempt fewer (R166, R170). -/
theorem pollTurn_again {res : Byte} {tmr : BitVec 16} (hres : res ≠ 0x00#8) (h : tmr ≠ 1#16) :
    pollTurn res tmr = (tmr - 1#16, .again) := by
  have hleft : tmr - 1#16 ≠ 0#16 := by bv_omega
  simp [pollTurn, hres, hleft]

/-- Any other result of the last attempt is a timeout (R166, R170). -/
theorem pollTurn_timeout {res : Byte} (hres : res ≠ 0x00#8) : pollTurn res 1#16 = (0#16, .timeout) := by
  simp [pollTurn, hres]

/-- Settles O25: one turn of the poll, by its verdict. -/
theorem hcsPollDecides : Obligations.HcsPollDecides := by
  intro s v tmr hp hc hres htmr hne
  rw [settle_at_init hp hc, initReturn, hres, need_some, htmr, need_some, afterHcs]
  refine ⟨?_, fun ⟨hv, hmore⟩ => ?_, ?_⟩
  · rintro rfl
    rw [pollTurn_success hne, ← htmr]
    exact congrArg Host.Outcome.next (callFromInit_of_no_call hc ..)
  · rw [pollTurn_again hv hmore]
    exact congrArg Host.Outcome.next (callFromInit_again (by exact hp) (by exact hc) ..)
  · rintro ⟨hv, rfl⟩
    rw [pollTurn_timeout hv]
    exact congrArg Host.Outcome.next (failEntry_initOp _ _ _ hp)

/-- Settles O28: one turn of the poll, by its verdict. -/
theorem idleExitPollDecides : Obligations.IdleExitPollDecides := by
  intro s v pcmd tmr hp hc hres htmr hne hpcmd
  rw [settle_at_init hp hc, initReturn, hres, need_some, htmr, need_some, hpcmd, need_some, afterIdlex]
  refine ⟨?_, fun ⟨hv, hmore⟩ => ?_, ?_⟩
  · rintro rfl
    rw [pollTurn_success hne, ← htmr]
    exact congrArg Host.Outcome.next (callFromInit_of_no_call hc ..)
  · rw [pollTurn_again hv hmore]
    exact congrArg Host.Outcome.next (callFromInit_again (by exact hp) (by exact hc) ..)
  · rintro ⟨hv, rfl⟩
    rw [pollTurn_timeout hv]
    exact congrArg Host.Outcome.next (failEntry_initOp _ _ _ hp)

/-- Results other than 0x00, fewer than the attempts left, count `TMR` down by their number (R174). -/
theorem pollRun_append {bad : List Byte} {tmr : BitVec 16} (hbad : ∀ r ∈ bad, r ≠ 0x00#8)
    (hlen : bad.length < tmr.toNat) (more : List Byte) :
    pollRun (bad ++ more) tmr = pollRun more (tmr - BitVec.ofNat 16 bad.length) := by
  induction bad generalizing tmr with
  | nil => simp
  | cons r bad ih =>
    obtain ⟨hr, hbad⟩ := List.forall_mem_cons.mp hbad
    rw [List.length_cons] at hlen
    have hmore : tmr ≠ 1#16 := by bv_omega
    have hcount : tmr - 1#16 - BitVec.ofNat 16 bad.length = tmr - BitVec.ofNat 16 (bad.length + 1) := by bv_omega
    rw [List.cons_append, pollRun, pollTurn_again hr hmore, List.length_cons, ← hcount]
    exact ih hbad (by bv_omega)

/-- Settles O31: the attempts that fail count down, and the turn after them decides. -/
theorem idleExitPollLaw : Obligations.IdleExitPollLaw := by
  intro bad hbad
  refine ⟨fun more hlen => ?_, fun more hlen => ?_, fun hlen => ?_⟩
  · have hleft : 25000#16 - BitVec.ofNat 16 bad.length ≠ 0#16 := by bv_omega
    rw [pollRun_append (tmr := 25000#16) hbad hlen, pollRun, pollTurn_success hleft]
  · obtain ⟨front, r, rfl⟩ : ∃ front r, bad = front ++ [r] :=
      ⟨_, _, (List.dropLast_append_getLast (List.ne_nil_of_length_pos (by omega))).symm⟩
    have hfront : front.length = 24999 := by simpa using hlen
    have hr : r ≠ 0x00#8 := hbad r (by simp)
    rw [List.append_assoc, pollRun_append (fun b hb => hbad b (by simp [hb])) (by rw [hfront]; decide), hfront,
      List.singleton_append, pollRun]
    simp [pollTurn_timeout hr]
  · have h := pollRun_append (tmr := 25000#16) hbad hlen []
    rwa [List.append_nil] at h

/-! ## Probe and block length -/

/-- Settles O27: the probe's response chooses the branch. -/
theorem probeClassifies : Obligations.ProbeClassifies := by
  intro s v hp hc hres
  rw [settle_at_init hp hc, initReturn, hres, need_some, afterProbe, classifyProbe]
  refine ⟨fun hv => ?_, fun hv => ?_⟩
  · rw [if_pos (BitVec.le_def.mpr hv)]
    exact congrArg Host.Outcome.next (callFromInit_of_no_call (by exact hc) ..)
  · rw [if_neg (by simpa [BitVec.le_def] using hv)]
    exact congrArg Host.Outcome.next (callFromInit_of_no_call (by exact hc) ..)

/-- Settles O29: `afterBlen` looks at the response alone. -/
theorem blockLengthResponseDecides : Obligations.BlockLengthResponseDecides := by
  intro s v hp hc hres
  rw [settle_at_init hp hc, initReturn, hres, need_some, afterBlen]
  refine ⟨fun hv => ?_, fun hv => ?_⟩
  · rw [if_pos hv]
    rfl
  · rw [if_neg hv, failEntry_initOp _ _ _ hp]

/-! ## The trailing bytes of `CMD8` and `CMD58` -/

/-- The state after a trailing byte is read into `BUF[k]` (R165, R167). -/
theorem readBuf_eq (k : Fin 4) (s : State) :
    readBuf k s =
      { (draw s).2 with
        trace := .xchg 0xFF#8 (draw s).1 :: s.trace
        work := { s.work with buf := s.work.buf.set k (some (draw s).1) } } := by
  simp [readBuf, exchange_snd, Config.dummy]

/-- The first three echo reads are followed by another (R165). -/
theorem echoStep_of_succ {k k' : Fin 4} (h : k'.val = k.val + 1) (s : State) :
    echoStep k s = .next (gotoInit (.echo k') (readBuf k s)) := by
  match k with
  | 0 => obtain rfl : k' = 1 := Fin.ext h; rfl
  | 1 => obtain rfl : k' = 2 := Fin.ext h; rfl
  | 2 => obtain rfl : k' = 3 := Fin.ext h; rfl
  | 3 => exact absurd k'.isLt (by simp [h])

/-- The first three OCR reads are followed by another (R167). -/
theorem ocrStep_of_succ {k k' : Fin 4} (h : k'.val = k.val + 1) (s : State) :
    ocrStep k s = .next (gotoInit (.ocrRead k') (readBuf k s)) := by
  match k with
  | 0 => obtain rfl : k' = 1 := Fin.ext h; rfl
  | 1 => obtain rfl : k' = 2 := Fin.ext h; rfl
  | 2 => obtain rfl : k' = 3 := Fin.ext h; rfl
  | 3 => exact absurd k'.isLt (by simp [h])

/-- The echo check sees the three bytes read before, and the fourth (R165). -/
theorem echoStep_last {s : State} {b0 b1 b2 : Byte} (h0 : s.work.buf[0] = some b0) (h1 : s.work.buf[1] = some b1)
    (h2 : s.work.buf[2] = some b2) :
    echoStep 3 s =
      if echoOk b2 (draw s).1 then
        .next (callFromInit .hcs codeAcmd41 Config.hcsArg { readBuf 3 s with work.tmr := some Config.nIdlePoll })
      else .next (failEntry (.echo b0 b1 b2 (draw s).1) (readBuf 3 s)) := by
  simp [echoStep, echoCheck, h0, h1, h2]

theorem echoOk_iff {b2 b3 : Byte} : echoOk b2 b3 = true ↔ b2 = 0x01#8 ∧ b3 = 0xAA#8 := by
  simp [echoOk]

/-- Settles O24: each read goes to `BUF`, and the fourth is followed by the check. -/
theorem echoIsReadAndChecked : Obligations.EchoIsReadAndChecked := by
  intro s hl hr hc
  refine ⟨fun k k' hk hp => ?_, fun b0 b1 b2 hp h0 h1 h2 => ?_⟩
  · rw [exec_initialize_due hl hr hp, initEvent, echoStep_of_succ hk, readBuf_eq]
    rfl
  · rw [exec_initialize_due hl hr hp, initEvent, echoStep_last h0 h1 h2]
    refine ⟨fun hok => ?_, fun hbad => ?_⟩
    · rw [if_pos (echoOk_iff.mpr hok), callFromInit_of_no_call (by simp [hc]), readBuf_eq]
      simp [codeAcmd41, Config.hcsArg, Config.nIdlePoll]
    · have hpos : (readBuf 3 s).pos = .initOp (.echo 3) := by simpa using hp
      rw [if_neg (mt echoOk_iff.mp hbad), failEntry_initOp _ _ _ hpos, readBuf_eq]
      rfl

/-- The classifier sees the first OCR byte (R168). -/
theorem ocrStep_last {s : State} {b0 : Byte} (h0 : s.work.buf[0] = some b0) :
    ocrStep 3 s = .next (gotoInit .clean { readBuf 3 s with work.ty := some (classifyOcr b0) }) := by
  simp [ocrStep, classifySd2, h0]

/-- Settles O26: the response decides, each read goes to `BUF`, and the fourth is followed by the classifier. -/
theorem ocrIsReadAndClassified : Obligations.OcrIsReadAndClassified := by
  intro s hl hr hc
  refine ⟨fun v hp hres => ?_, fun k k' hk hp => ?_, fun b0 hp h0 => ?_⟩
  · rw [settle_at_init hp hc, initReturn, hres, need_some, afterOcr]
    refine ⟨fun hv => ?_, fun hv => ?_⟩
    · rw [if_pos hv]
      rfl
    · rw [if_neg hv, failEntry_initOp _ _ _ hp]
  · rw [exec_initialize_due hl hr hp, initEvent, ocrStep_of_succ hk, readBuf_eq]
    rfl
  · rw [exec_initialize_due hl hr hp, initEvent, ocrStep_last h0, readBuf_eq]
    rfl

end Sys2Proof.Machine
end

section
/-! PROOF. The whole warm-up as a run (R161 to R163). -/

namespace Sys2Proof.Machine

section WarmUp

variable {s : State} {k : Nat}

/-- After an event of the warm-up no return is left to resolve (R161, R163). -/
theorem settle_warmStep (hc : s.calls = []) : settle (warmStep k s) = .next (warmStep k s) := by
  by_cases h : k + 1 < s.params.nWarmupDesel + s.params.nWarmupSel + 2
  · rw [warmStep_of_lt h]
    exact settle_at_init (p := .warm (k + 1)) rfl (by simp [hc])
  · rw [warmStep_of_last h]
    exact settle_of_call rfl (by simp [callOf, isApp_codeCmd0])

/-- A step of the warm-up is its event (R161). -/
theorem step_warm (hl : paramsLegal s.params = true) (hr : s.request = none) (hc : s.calls = [])
    (hp : s.pos = .initOp (.warm k)) : step s = .next (warmStep k s) := by
  obtain ⟨-, -, -, -, operation, -⟩ := stepRunsTheDecodedInstruction s
  rw [operation _ hr hc hp, exec_initialize_due hl hr hp, initEvent, andThen_next, settle_warmStep hc]

/-- Away from its two `Sel` events the warm-up exchanges a dummy byte (R161). -/
theorem warmEvent_of_cons {b : Byte} {l : List Byte} (h0 : k ≠ 0) (hsel : k ≠ s.params.nWarmupDesel + 1)
    (hin : s.incoming = b :: l) :
    warmEvent k s = { s with incoming := l, trace := .xchg Config.dummy b :: s.trace } := by
  rw [warmEvent, if_neg h0, if_neg hsel, dummyExchange, exchange_of_cons _ hin]

/-- Dummy exchanges that stay on one side of the `Sel(true)`, before the last of the warm-up, take a step each
(R161). -/
theorem warm_exchanges_run {g tl : List Byte} (hl : paramsLegal s.params = true) (hr : s.request = none)
    (hc : s.calls = []) (hp : s.pos = .initOp (.warm k)) (h0 : k ≠ 0)
    (hside : k + g.length ≤ s.params.nWarmupDesel + 1 ∨ s.params.nWarmupDesel + 1 < k)
    (hlt : k + g.length < s.params.nWarmupDesel + s.params.nWarmupSel + 2) (hin : s.incoming = g ++ tl) :
    runSteps g.length s = .next { s with
      pos := .initOp (.warm (k + g.length))
      incoming := tl
      trace := dummyEvents g ++ s.trace } := by
  induction g generalizing s k with
  | nil =>
    obtain rfl : s.incoming = tl := hin
    rw [List.length_nil, Nat.add_zero, ← hp]
    rfl
  | cons b g ih =>
    rw [List.length_cons] at hside hlt ⊢
    let s1 : State :=
      { s with
        pos := .initOp (.warm (k + 1)), incoming := g ++ tl, trace := .xchg Config.dummy b :: s.trace }
    have h1 : step s = .next s1 := by
      rw [step_warm hl hr hc hp, warmStep_of_lt (by omega), warmEvent_of_cons h0 (by omega) hin]
      rfl
    have hrun := ih (s := s1) (k := k + 1) hl hr hc rfl (by omega) (by simp only [s1]; omega)
      (by simp only [s1]; omega) rfl
    rw [runSteps_of_step h1, hrun]
    simp [s1, dummyEvents, Nat.add_assoc, Nat.add_comm 1]

/-- The acceptance of `INITIALIZE` is a step, the first event of the warm-up (R161). -/
theorem step_accepted_initialize (hp : s.pos = .idle) (hc : s.calls = [])
    (hr : s.request = some ⟨0b01#2, 0, 0#32, 0#10, 0#10⟩) (hl : paramsLegal s.params = true) :
    step s = .next (gotoInit (.warm 1) (select false (acceptRequest s))) := by
  rw [step_of_request (i := .hostInitialize) hr rfl, exec_initialize_idle hp hc hl, andThen_next]
  exact settle_at_init (p := .warm 1) rfl hc

end WarmUp

/-- Settles O21: the acceptance, the deselected exchanges, `Sel(true)`, the selected exchanges but the last, and the
last, after which `CMD0` is due. -/
theorem warmUpMakesItsExchanges : Obligations.WarmUpMakesItsExchanges := by
  intro s l1 l2 tl hp hc hr hl h1 h2 hin
  obtain ⟨⟨-, hsel⟩, -⟩ : (10 ≤ s.params.nWarmupDesel ∧ 600 ≤ s.params.nWarmupSel) ∧ _ := by
    simpa only [paramsLegal, Bool.and_eq_true, decide_eq_true_eq] using hl
  obtain ⟨front, b, rfl⟩ : ∃ front b, l2 = front ++ [b] :=
    ⟨_, _, (List.dropLast_append_getLast (List.ne_nil_of_length_pos (by omega))).symm⟩
  rw [List.length_append, List.length_singleton] at h2
  let s1 : State := gotoInit (.warm 1) (select false (acceptRequest s))
  let s2 : State :=
    { s1 with
      pos := .initOp (.warm (1 + l1.length)), incoming := front ++ [b] ++ tl, trace := dummyEvents l1 ++ s1.trace }
  let s3 : State :=
    { s2 with
      pos := .initOp (.warm (1 + l1.length + 1)), sel := true, trace := .sel true :: s2.trace }
  let s4 : State :=
    { s3 with
      pos := .initOp (.warm (1 + l1.length + 1 + front.length))
      incoming := [b] ++ tl
      trace := dummyEvents front ++ s3.trace }
  have run1 : step s = .next s1 := step_accepted_initialize hp hc hr hl
  have run2 : runSteps l1.length s1 = .next s2 :=
    warm_exchanges_run (s := s1) hl rfl hc rfl one_ne_zero (.inl (by simp [s1]; omega)) (by simp [s1]; omega)
      (by simpa [s1] using hin)
  have run3 : step s2 = .next s3 := by
    have hk : 1 + l1.length = s2.params.nWarmupDesel + 1 := by simp [s2, s1]; omega
    rw [step_warm (s := s2) hl rfl hc rfl, warmStep_of_lt (by simp [s2, s1]; omega), warmEvent, if_neg (by omega),
      if_pos hk]
    rfl
  have run4 : runSteps front.length s3 = .next s4 :=
    warm_exchanges_run (s := s3) hl rfl hc rfl (by omega) (.inr (by simp [s3, s2, s1]; omega))
      (by simp [s3, s2, s1]; omega) (by simp [s3, s2])
  have run5 := step_warm (s := s4) hl rfl hc rfl
  rw [show s.params.nWarmupDesel + s.params.nWarmupSel + 2 = l1.length + (front.length + 1 + 1) + 1 by omega,
    runSteps_of_step run1, runSteps_add run2, runSteps_of_step run3, runSteps_add run4, runSteps_one run5,
    warmStep_of_last (by simp [s4, s3, s2, s1]; omega),
    warmEvent_of_cons (s := s4) (by omega) (by simp [s4, s3, s2, s1]; omega) rfl, callFromInit_of_no_call]
  · simp [s4, s3, s2, s1, dummyEvents, select, emit, acceptRequest, gotoInit, codeCmd0]
  · exact hc

end Sys2Proof.Machine
end

section
/-! PROOF. `CMD16` on the SD-v1/MMC path alone: which positions are reached only by the use of a response, and from
where (R175, R280). -/

namespace Sys2Proof.Machine

/-! ## The frame of `CMD16` -/

/-- The frame of the command called (R80). -/
theorem frameF0_of_calling {code : Byte} {arg : Word32} {s : State} {c : Call} (hc : s.calls = [c])
    (h : calling code arg s = true) : frameF0 c.frame = code &&& 0x7F#8 := by
  have hframe : c.frame = frameOf s.params.crc7Mode code arg := by simpa [hc] using calling_iff.mp h
  rw [hframe, frameF0_frameOf]

/-- A frame on the return stack that is neither the prefix's nor `ACMD41`'s is the only one there (R28). -/
theorem calls_eq_singleton {s : State} {c : Call} (hs : callsOk s = true) (hc : c ∈ s.calls)
    (h55 : frameF0 c.frame ≠ 0x77#8) (h41 : frameF0 c.frame ≠ 0x69#8) : s.calls = [c] := by
  obtain ⟨d, rest, hcalls⟩ := List.exists_cons_of_ne_nil (List.ne_nil_of_mem hc)
  rw [hcalls] at hc
  obtain ⟨-, -, ⟨rfl, -⟩ | ⟨w, rfl, -, hd, -, hw⟩⟩ := (callsOk_cons hcalls).mp hs
  · rw [hcalls, List.mem_singleton.mp hc]
  · rcases List.mem_pair.mp hc with rfl | rfl
    · rw [hd, frameF0_frameOf] at h55
      exact absurd rfl h55
    · exact absurd hw h41

/-- Of the commands the two operations call, only the one at `I_BLEN` has `F0` 0x50 (R82, R171). -/
theorem pos_of_cmd16 {s : State} {c : Call} (hinv : s.inv = true) (hp : s.pos ≠ .idle) (hc : s.calls = [c])
    (h : frameF0 c.frame = 0x50#8) : s.pos = .initOp .blen := by
  have other {code : Byte} {arg : Word32} (hcall : calling code arg s = true) (hne : code &&& 0x7F#8 ≠ 0x50#8) :
      False := hne ((frameF0_of_calling hc hcall).symm.trans h)
  have between (hnil : s.calls = []) : False := by simp [hc] at hnil
  cases hpos : s.pos with
  | idle => exact absurd hpos hp
  | initOp p =>
    have hok := initOk_of_inv hinv hpos
    cases p with
    | blen => rfl
    | cmd0 => exact (other (initOk_cmd0.mp hok).1 (by decide)).elim
    | cmd8 => exact (other (initOk_cmd8.mp hok).1 (by decide)).elim
    | hcs => exact (other (initOk_hcs.mp hok).1 (by decide)).elim
    | ocr => exact (other (initOk_ocr.mp hok).1 (by decide)).elim
    | probe => exact (other (initOk_probe.mp hok).1 (by decide)).elim
    | idlex =>
      obtain ⟨-, -, ty, pcmd, -, -, hcall, ⟨-, rfl⟩ | ⟨-, rfl⟩⟩ := initOk_idlex.mp hok
      · exact (other hcall (by decide)).elim
      · exact (other hcall (by decide)).elim
    | warm k => exact (between (initOk_warm.mp hok).1).elim
    | echo k => exact (between (initOk_echo.mp hok).1).elim
    | ocrRead k => exact (between (initOk_ocrRead.mp hok).1).elim
    | clean => exact (between (initOk_clean.mp hok).1).elim
    | release => exact (between (initOk_release.mp hok).1).elim
  | readOp ops p =>
    have hok := readOk_of_inv hinv hpos
    by_cases hcmd : p = .cmd17
    · subst hcmd
      obtain ⟨-, addr, -, hcall, -⟩ := readOk_cmd17.mp hok
      exact (other hcall (by decide)).elim
    · exact (between (calls_of_readOk hok hcmd)).elim

/-! ## Positions reached by the use of a response -/

/-- The return point whose response leads to the return point `p`, where only the use of a response does (R163, R164,
R167, R169 to R171). -/
def InitPos.source (p : InitPos) : Option InitPos :=
  match p with
  | .cmd8 => some .cmd0
  | .ocr => some .hcs
  | .probe => some .cmd8
  | .idlex => some .probe
  | .blen => some .idlex
  | .warm _ | .cmd0 | .echo _ | .hcs | .ocrRead _ | .clean | .release => none

/-- From `s` to `t` no position with a source is entered. -/
def EntersNone (s t : State) : Prop := ∀ p r, t.pos = .initOp p → p.source = some r → s.pos = .initOp p

/-- From `s` to `t` a position with a source is entered from it alone. -/
def EntersFromSource (s t : State) : Prop :=
  ∀ p r, t.pos = .initOp p → p.source = some r → s.pos = .initOp p ∨ s.pos = .initOp r

theorem EntersNone.of_pos_eq {s t : State} (h : t.pos = s.pos) : EntersNone s t :=
  fun _ _ ht _ => h.symm.trans ht

theorem EntersNone.of_init {s t : State} {q : InitPos} (ht : t.pos = .initOp q) (hq : q.source = none) :
    EntersNone s t := by
  intro p r hp hr
  cases ht.symm.trans hp
  rw [hq] at hr
  cases hr

theorem EntersNone.of_read {s t : State} {ops : ReadOperands} {q : ReadPos} (ht : t.pos = .readOp ops q) :
    EntersNone s t :=
  fun _ _ hp _ => nomatch ht.symm.trans hp

theorem EntersNone.of_idle {s t : State} (ht : t.pos = .idle) : EntersNone s t :=
  fun _ _ hp _ => nomatch ht.symm.trans hp

/-- The failure entry goes to a cleanup (R233). -/
theorem failEntry_entersNone {s t : State} {f : Failure} : EntersNone s (failEntry f t) := by
  cases ht : t.pos with
  | idle => exact .of_idle (by simp [failEntry, ht])
  | initOp p => exact .of_init (q := .clean) (by rw [failEntry_initOp f t p ht]) rfl
  | readOp ops p => exact .of_read (q := .clean) (by rw [failEntry_readOp f t ops p ht])

/-! ## Events -/

/-- The events of `INITIALIZE` enter no position with a source (R160). -/
theorem initEvent_entersNone {p : InitPos} {s t : State} (h : initEvent p s = .next t) : EntersNone s t := by
  cases p with
  | warm k =>
    obtain rfl : warmStep k s = t := Host.Outcome.next.inj h
    by_cases hlt : k + 1 < s.params.nWarmupDesel + s.params.nWarmupSel + 2
    · rw [warmStep_of_lt hlt]
      exact .of_init (q := .warm (k + 1)) rfl rfl
    · rw [warmStep_of_last hlt]
      exact .of_init (q := .cmd0) rfl rfl
  | echo k =>
    rcases echoStep_cases h with ⟨k', -, rfl⟩ | ⟨-, rfl | ⟨b0, b1, b2, b3, rfl⟩⟩
    · exact .of_init (q := .echo k') rfl rfl
    · exact .of_init (q := .hcs) rfl rfl
    · exact failEntry_entersNone
  | ocrRead k =>
    rcases ocrStep_cases h with ⟨k', -, rfl⟩ | ⟨-, b0, rfl⟩
    · exact .of_init (q := .ocrRead k') rfl rfl
    · exact .of_init (q := .clean) rfl rfl
  | clean =>
    obtain ⟨ty, -, rfl⟩ := initClean_cases h
    exact .of_init (q := .release) rfl rfl
  | release =>
    obtain ⟨ty, -, rfl⟩ := initRelease_cases h
    exact .of_idle rfl
  | cmd0 | cmd8 | hcs | ocr | probe | idlex | blen => exact .of_pos_eq (dispatchEvent_frame h).pos

theorem nextPacket_entersNone (s : State) {ops : ReadOperands} {j : Fin 514} {m t : State}
    (h : nextPacket ops j m = .next t) : EntersNone s t := by
  rcases nextPacket_cases h with ⟨j', -, rfl⟩ | ⟨-, h⟩
  · exact .of_read rfl
  · rcases crcCheck_cases h with rfl | ⟨computed, received, rfl⟩
    · exact .of_read rfl
    · exact failEntry_entersNone

/-- The events of `READ_PARTIAL` enter no position of `INITIALIZE` (R200). -/
theorem readEvent_entersNone {ops : ReadOperands} {p : ReadPos} {s t : State} (h : readEvent ops p s = .next t) :
    EntersNone s t := by
  cases p with
  | cmd17 => exact .of_pos_eq (dispatchEvent_frame h).pos
  | token =>
    obtain ⟨bc, -, rfl⟩ := tokenStep_cases h
    split
    · rcases tokenDecide_cases ops (draw s).1 (tokenRead bc s) with hd | ⟨f, hd⟩
      · rw [hd]
        exact .of_read rfl
      · rw [hd]
        exact failEntry_entersNone
    · exact .of_pos_eq (by simp [tokenRead])
  | copy =>
    obtain rfl : copyStep ops s = t := Host.Outcome.next.inj h
    exact .of_read (gotoRead_pos ..)
  | packet j =>
    rw [readEvent, packetStep_eq] at h
    split at h
    · cases h
      exact .of_read rfl
    · exact nextPacket_entersNone s h
  | write j =>
    obtain ⟨v, -, h⟩ := need_eq_next.mp h
    exact nextPacket_entersNone s h
  | clean =>
    cases h
    exact .of_read rfl
  | release =>
    obtain ⟨r, -, h⟩ := need_eq_next.mp h
    cases h
    exact .of_idle rfl

/-- No event enters a position with a source. -/
theorem exec_entersNone {i : Instr} {s t : State} (h : exec i s = .next t) : EntersNone s t := by
  cases i with
  | hostInitialize =>
    obtain ⟨hl, rfl | ⟨-, -, h⟩ | ⟨p, -, -, h⟩⟩ := execInitialize_cases h
    · exact .of_pos_eq rfl
    · rw [acceptInit_of_legal hl] at h
      cases h
      exact .of_init (q := .warm 1) rfl rfl
    · exact initEvent_entersNone h
  | readPartial dst blk ofs cnt =>
    obtain ⟨-, rfl | ⟨-, -, -, h⟩ | ⟨p, -, -, h⟩⟩ := execReadPartial_cases h
    · exact .of_pos_eq rfl
    · exact .of_read (dispatchEvent_frame h).pos
    · exact readEvent_entersNone h
  | acmd41 hcs =>
    cases hcs <;> exact .of_pos_eq (exec_command_frame rfl h).pos
  | _ => exact .of_pos_eq (exec_command_frame rfl h).pos

/-! ## Returns -/

theorem EntersNone.fromSource {s t : State} (h : EntersNone s t) : EntersFromSource s t :=
  fun p r ht hr => .inl (h p r ht hr)

theorem EntersFromSource.of_init {s t : State} {p q : InitPos} (hs : s.pos = .initOp p) (ht : t.pos = .initOp q)
    (hq : ∀ r, q.source = some r → q = p ∨ r = p) : EntersFromSource s t := by
  intro q' r hq' hr
  cases ht.symm.trans hq'
  rcases hq r hr with rfl | rfl
  · exact .inl hs
  · exact .inr hs

/-- The use of a response enters a position only from its source (R163 to R171). -/
theorem initReturn_fromSource {p : InitPos} {s t : State} (hp : s.pos = .initOp p) (h : initReturn p s = .next t) :
    EntersFromSource s t := by
  cases p with
  | cmd0 =>
    obtain ⟨res, -, h⟩ := need_eq_next.mp h
    cases h
    unfold afterCmd0
    split
    · exact .of_init (q := .cmd8) hp rfl (by simp [InitPos.source])
    · exact failEntry_entersNone.fromSource
  | cmd8 =>
    obtain ⟨res, -, h⟩ := need_eq_next.mp h
    cases h
    unfold afterCmd8
    split
    · exact .of_init (q := .echo 0) hp rfl (by simp [InitPos.source])
    · exact .of_init (q := .probe) hp rfl (by simp [InitPos.source])
  | hcs =>
    obtain ⟨res, -, h⟩ := need_eq_next.mp h
    obtain ⟨tmr, -, h⟩ := need_eq_next.mp h
    cases h
    unfold afterHcs
    dsimp only
    split
    · exact .of_init (q := .hcs) hp rfl (by simp [InitPos.source])
    · exact .of_init (q := .ocr) hp rfl (by simp [InitPos.source])
    · exact failEntry_entersNone.fromSource
  | ocr =>
    obtain ⟨res, -, h⟩ := need_eq_next.mp h
    cases h
    unfold afterOcr
    split
    · exact .of_init (q := .ocrRead 0) hp rfl (by simp [InitPos.source])
    · exact failEntry_entersNone.fromSource
  | probe =>
    obtain ⟨res, -, h⟩ := need_eq_next.mp h
    cases h
    exact .of_init (q := .idlex) hp rfl (by simp [InitPos.source])
  | idlex =>
    obtain ⟨res, -, h⟩ := need_eq_next.mp h
    obtain ⟨tmr, -, h⟩ := need_eq_next.mp h
    obtain ⟨pcmd, -, h⟩ := need_eq_next.mp h
    cases h
    unfold afterIdlex
    dsimp only
    split
    · exact .of_init (q := .idlex) hp rfl (by simp)
    · exact .of_init (q := .blen) hp rfl (by simp [InitPos.source])
    · exact failEntry_entersNone.fromSource
  | blen =>
    obtain ⟨res, -, h⟩ := need_eq_next.mp h
    cases h
    unfold afterBlen
    split
    · exact .of_init (q := .clean) hp rfl (by simp [InitPos.source])
    · exact failEntry_entersNone.fromSource
  | warm _ | echo _ | ocrRead _ | clean | release =>
    cases h
    exact (EntersNone.of_pos_eq rfl).fromSource

theorem readReturn_entersNone {ops : ReadOperands} {p : ReadPos} {s t : State} (h : readReturn ops p s = .next t) :
    EntersNone s t := by
  cases p with
  | cmd17 =>
    obtain ⟨res, -, h⟩ := need_eq_next.mp h
    obtain ⟨addr, -, h⟩ := need_eq_next.mp h
    cases h
    unfold afterCmd17
    split
    · exact .of_read rfl
    · exact failEntry_entersNone
  | token | copy | packet _ | write _ | clean | release =>
    cases h
    exact .of_pos_eq rfl

/-- The resolution of returns enters a position only from its source (R28). -/
theorem settle_fromSource {s t : State} (h : settle s = .next t) : EntersFromSource s t := by
  obtain ⟨u, hu, h⟩ := andThen_eq_next.mp h
  have hpos := (prefixReturn_quiet hu).2
  have hut : EntersFromSource u t := by
    unfold operationReturn at h
    split at h
    · cases h
      exact (EntersNone.of_pos_eq rfl).fromSource
    · split at h
      · cases h
        exact (EntersNone.of_pos_eq rfl).fromSource
      · exact initReturn_fromSource ‹_› h
      · exact (readReturn_entersNone h).fromSource
  rwa [EntersFromSource, hpos] at hut

/-- A step enters a position only from its source, where that is itself a position no event enters: its event enters
neither. -/
theorem step_fromSource {s t : State} {p r q : InitPos} (h : step s = .next t) (ht : t.pos = .initOp p)
    (hp : p.source = some r) (hr : r.source = some q) : s.pos = .initOp p ∨ s.pos = .initOp r := by
  rcases step_cases h with ⟨-, rfl⟩ | ⟨-, rfl⟩ | ⟨i, u, -, hu, hs⟩
  · exact .inl ht
  · exact .inl ht
  · have hnone := exec_entersNone hu
    exact (settle_fromSource hs p r ht hp).imp (fun hpos => hnone p r hpos hp) (fun hpos => hnone r q hpos hr)

/-- Settles O54: the frame is the one called at `I_BLEN`, and the chain to it is the sources. -/
theorem blockLengthIsSetOnlyAfterTheProbe : Obligations.BlockLengthIsSetOnlyAfterTheProbe := by
  refine ⟨fun s c hinv hp hc hframe => ?_, fun s t h => ?_⟩
  · have h50 : frameF0 c.frame = 0x50#8 := by
      rcases hframe with hframe | h
      · rw [hframe, frameF0_frameOf]
        rfl
      · exact h
    refine pos_of_cmd16 hinv hp (calls_eq_singleton (callsOk_of_inv hinv) hc ?_ ?_) h50
    · rw [h50]
      decide
    · rw [h50]
      decide
  · exact ⟨fun ht => step_fromSource h ht rfl rfl, fun ht => step_fromSource h ht rfl rfl,
      fun ht => step_fromSource h ht rfl rfl⟩

end Sys2Proof.Machine
end

section
/-! PROOF. The read command's response and the two copies, their next states written out (R203, R205 to R208). -/

namespace Sys2Proof.Machine

/-! ## The read command -/

/-- When the read command has returned, its response is used (R28). -/
theorem settle_at_read {s : State} {ops : ReadOperands} {p : ReadPos} (hp : s.pos = .readOp ops p)
    (hc : s.calls = []) : settle s = readReturn ops p s := by
  rw [settle_of_no_call hc, operationReturn, hc, hp]

/-- Settles O36: the invariant names the command, and `afterCmd17` looks at the response alone. -/
theorem readCommandResponseDecides : Obligations.ReadCommandResponseDecides := by
  refine ⟨fun s ops hinv hp => ?_, fun s ops v addr hp hc hres haddr => ?_⟩
  · obtain ⟨-, addr, haddr, hcall, -⟩ := readOk_cmd17.mp (readOk_of_inv hinv hp)
    exact ⟨addr, haddr, calling_iff.mp hcall⟩
  · rw [settle_at_read hp hc, readReturn, hres, need_some, haddr, need_some, afterCmd17]
    refine ⟨fun hv => ?_, fun hv => ?_⟩
    · rw [if_pos hv]
      rfl
    · rw [if_neg hv, failEntry_readOp _ _ _ _ hp]

/-- Settles O44: the configuration is not legal, and neither operation looks further. -/
theorem illegalConfigurationIsRefused : Obligations.IllegalConfigurationIsRefused := by
  intro s dst blk ofs cnt hcheck hmode
  have hl : ¬ paramsLegal s.params = true := by simp [paramsLegal, hcheck, hmode]
  exact ⟨if_neg hl, if_neg hl⟩

/-! ## The delegated copy -/

/-- The bytes listed are the bytes drawn, in order (R10). -/
theorem drawMany_of_append (bytes tl : List Byte) {s : State} (h : s.incoming = bytes ++ tl) :
    drawMany bytes.length s = (bytes, { s with incoming := tl }) := by
  induction bytes generalizing s with
  | nil =>
    obtain rfl : tl = s.incoming := h.symm
    rfl
  | cons b bytes ih =>
    have hrest : (draw s).2.incoming = bytes ++ tl := by rw [draw_incoming, h]; rfl
    rw [List.length_cons, drawMany, ih hrest, draw_of_cons s b _ h]

/-- The window of a packet: its byte `i` is byte `OFS + i` of the packet (R206). -/
theorem getElem?_window (packet : List Byte) {ofs cnt i : Nat} (h : i < cnt) :
    ((packet.drop ofs).take cnt)[i]? = packet[ofs + i]? := by
  rw [List.getElem?_take_of_lt h, List.getElem?_drop]

/-- A window inside one sector lies inside the packet (R201). -/
theorem length_window {packet : List Byte} {ofs cnt : BitVec 10} (hw : windowOk ofs cnt = true)
    (hlen : packet.length = 514) : ((packet.drop ofs.toNat).take cnt.toNat).length = cnt.toNat := by
  simp only [windowOk, Bool.and_eq_true, decide_eq_true_eq] at hw
  rw [List.length_take, List.length_drop]
  omega

/-- Settles O38: the collaborator writes the window of the 514 bytes it takes. -/
theorem delegatedCopyDeliversTheWindow : Obligations.DelegatedCopyDeliversTheWindow := by
  intro s dst blk ofs cnt packet tl hl hr _ hp hw hlen hin
  have hlenw := length_window hw hlen
  have hdraw : drawMany Config.packetBytes (emit (.copy dst ofs cnt) s) =
      (packet, { emit (.copy dst ofs cnt) s with incoming := tl }) := by
    rw [show Config.packetBytes = packet.length from hlen.symm]
    exact drawMany_of_append packet tl hin
  refine ⟨s.dest.writeList (dst * 512) ((packet.drop ofs.toNat).take cnt.toNat), ?_, fun i hi => ?_, fun a ha => ?_⟩
  · rw [exec_read_due hl hr hp, readEvent, copyStep, copyWindow, hdraw, destAddr, Nat.add_zero]
    rfl
  · rw [Memory.read_writeList_inside _ _ _ _ (by rwa [hlenw]), ← List.getElem?_eq_getElem, getElem?_window packet hi]
  · exact Memory.read_writeList_outside _ _ _ _ (by rwa [hlenw])

/-! ## The inline copy -/

/-- Byte `j` lies in the window (R207). -/
theorem inWindow_iff {ofs cnt : BitVec 10} {j : Nat} :
    inWindow ofs cnt j = true ↔ ofs.toNat ≤ j ∧ j < ofs.toNat + cnt.toNat := by
  simp only [inWindow, Bool.and_eq_true, decide_eq_true_eq]

/-- One exchange of the inline copy takes a byte into `D[j]` (R207). -/
theorem packetRead_eq (j : Fin 514) (s : State) :
    packetRead j s =
      { (draw s).2 with
        trace := .xchg 0xFF#8 (draw s).1 :: s.trace
        work := { s.work with d := setEntry s.work.d j.val (draw s).1 } } := by
  rw [packetRead, exchange_snd]
  rfl

/-- Before the last byte the next one is due (R207). -/
theorem nextPacket_of_succ {j j' : Fin 514} (h : j'.val = j.val + 1) (ops : ReadOperands) (s : State) :
    nextPacket ops j s = .next (gotoRead ops (.packet j') s) := by
  have hlt : j.val + 1 < 514 := h ▸ j'.isLt
  obtain rfl : j' = ⟨j.val + 1, hlt⟩ := Fin.ext h
  rw [nextPacket, dif_pos hlt]

/-- After the last byte the packet is checked (R207, R208). -/
theorem nextPacket_of_last {j : Fin 514} (h : j.val = 513) (ops : ReadOperands) (s : State) :
    nextPacket ops j s = crcCheck (gotoRead ops .clean { s with work := { s.work with result := some .ok } }) := by
  rw [nextPacket, dif_neg (by omega)]

/-- Without `P_CRC16_CHECK` nothing is checked (R208). -/
theorem crcCheck_off {s : State} (h : s.params.crc16Check = false) : crcCheck s = .next s := by
  simp [crcCheck, h]

/-- Settles O39: the window decides what follows the exchange. -/
theorem inlineCopyReadsThePacket : Obligations.InlineCopyReadsThePacket := by
  intro s dst blk ofs cnt j hl hr _ hp
  rw [exec_read_due hl hr hp, readEvent, packetStep_eq]
  refine ⟨fun hin => ?_, fun hout => ⟨fun j' hj' => ?_, fun hlast hcheck => ?_⟩⟩
  · rw [if_pos (inWindow_iff.mpr hin), packetRead_eq]
    rfl
  · rw [if_neg (mt inWindow_iff.mp hout), nextPacket_of_succ hj', packetRead_eq]
    rfl
  · rw [if_neg (mt inWindow_iff.mp hout), nextPacket_of_last hlast, crcCheck_off (by simpa [packetRead] using hcheck),
      packetRead_eq]
    rfl

/-- Settles O40: one write, and then the next byte. -/
theorem inlineCopyWritesTheWindow : Obligations.InlineCopyWritesTheWindow := by
  intro s dst blk ofs cnt j j' v hl hr _ hp hj' hv
  refine ⟨s.dest.write (destAddr dst (j.val - ofs.toNat)) v, ?_, Memory.read_write_same _ _ _,
    fun a ha => Memory.read_write_other _ _ _ _ ha⟩
  rw [exec_read_due hl hr hp, readEvent, writeStep, hv, need_some, nextPacket_of_succ hj']
  rfl

/-! ## The CRC-16 -/

/-- The eight turns of a byte, by the polynomial 0x1021, most significant bit first (R93). -/
theorem crc16Byte_eq (c : BitVec 16) (b : Byte) :
    crc16Byte c b =
      (List.range 8).foldl (fun c _ => if c.getLsbD 15 then (c <<< 1) ^^^ 0x1021#16 else c <<< 1)
        (c ^^^ (b.setWidth 16 <<< 8)) := by
  have hb : (b ++ 0x00#8 : BitVec 16) = b.setWidth 16 <<< 8 := by
    rw [BitVec.append_def, BitVec.shiftLeftZeroExtend_eq]
    simp
  rw [crc16Byte, hb]
  rfl

/-- The CRC-16 of a repeated byte, in two parts (R93). -/
theorem crc16_replicate_add {b : Byte} {m : Nat} {c d : BitVec 16} (n : Nat) (hc : crc16 (List.replicate m b) = c)
    (hd : (List.replicate n b).foldl crc16Byte c = d) : crc16 (List.replicate (m + n) b) = d := by
  rw [← List.replicate_append_replicate, crc16_append, hc, hd]

/-- The initial value stays 0 over bytes 0x00 (R93). -/
theorem crc16_zeros (n : Nat) : crc16 (List.replicate n 0x00#8) = 0x0000#16 := by
  induction n with
  | zero => rfl
  | succ n ih => exact crc16_replicate_add 1 ih (by decide)

/-- The check value of a sector of 0xFF (R93), 64 bytes at a time: the kernel does not evaluate all 4096 turns at
once. -/
theorem crc16_sector_of_ones : crc16 (List.replicate 512 0xFF#8) = 0x7FA1#16 := by
  have h64 : crc16 (List.replicate 64 0xFF#8) = 0x278E#16 := by decide +kernel
  have h128 := crc16_replicate_add (d := 0xEDA9#16) 64 h64 (by decide +kernel)
  have h192 := crc16_replicate_add (d := 0x9131#16) 64 h128 (by decide +kernel)
  have h256 := crc16_replicate_add (d := 0x1AC7#16) 64 h192 (by decide +kernel)
  have h320 := crc16_replicate_add (d := 0x8689#16) 64 h256 (by decide +kernel)
  have h384 := crc16_replicate_add (d := 0x955C#16) 64 h320 (by decide +kernel)
  have h448 := crc16_replicate_add (d := 0x7046#16) 64 h384 (by decide +kernel)
  exact crc16_replicate_add 64 h448 (by decide +kernel)

/-- The check value of the string "123456789" (R93). -/
theorem crc16_digits :
    crc16 [0x31#8, 0x32#8, 0x33#8, 0x34#8, 0x35#8, 0x36#8, 0x37#8, 0x38#8, 0x39#8] = 0x31C3#16 := by
  decide +kernel

/-- `D[j] <- v` for the first `j` past the list's end. -/
theorem setEntry_length (d : List (Option Byte)) (v : Byte) : setEntry d d.length v = d ++ [some v] := by
  induction d with
  | nil => rfl
  | cons x d ih => rw [List.length_cons, setEntry, ih, List.cons_append]

/-- Entries that hold a list of bytes are those bytes. -/
theorem entries_of_map_some (data : List Byte) (tl : List (Option Byte)) :
    entries (data.map some ++ tl) 0 data.length = some data := by
  have hmap : (List.range' 0 data.length).map (entry (data.map some ++ tl)) = data.map some := by
    refine List.ext_getElem (by simp) fun j h1 h2 => ?_
    have hj : j < data.length := by simpa using h2
    simp [entry, List.getElem?_append, hj]
  rw [entries, hmap, List.mapM_map]
  exact List.mapM_pure.trans (by rw [List.map_id']; rfl)

/-- The check of a whole packet compares the CRC-16 of its data with its last two bytes (R208). -/
theorem crcCheck_of_packet {s : State} {data : List Byte} {hi lo : Byte} (hcheck : s.params.crc16Check = true)
    (hlen : data.length = 512) (hd : s.work.d = data.map some ++ [some hi, some lo]) :
    crcCheck s =
      if crc16 data = hi ++ lo then .next s else .next (failEntry (.dataCrc (crc16 data) (hi ++ lo)) s) := by
  have hbytes : entries s.work.d 0 512 = some data := by rw [hd, ← hlen, entries_of_map_some]
  have hhi : entry s.work.d 512 = some hi := by simp [entry, hd, hlen]
  have hlo : entry s.work.d 513 = some lo := by simp [entry, hd, hlen]
  rw [crcCheck, if_pos hcheck, hbytes, hhi, hlo]
  rfl

/-- Settles O41: the last byte lies outside every window, and completes the packet that is checked. -/
theorem crcCheckDecides : Obligations.CrcCheckDecides := by
  refine ⟨⟨rfl, crc16_zeros 512, crc16_sector_of_ones, crc16_digits⟩, fun bytes b => ?_, ?_⟩
  · rw [crc16_append, List.foldl_cons, List.foldl_nil, crc16Byte_eq]
  · intro s dst blk ofs cnt data hi hl hr _ hcheck hw hp hlen hd
    have hout : ¬ inWindow ofs cnt (513 : Fin 514).val = true := by
      simp only [windowOk, Bool.and_eq_true, decide_eq_true_eq] at hw
      simp only [inWindow_iff]
      omega
    have hset : setEntry s.work.d 513 (draw s).1 = data.map some ++ [some hi, some (draw s).1] := by
      simpa [hd, hlen] using setEntry_length s.work.d (draw s).1
    rw [exec_read_due hl hr hp, readEvent, packetStep_eq, if_neg hout, nextPacket_of_last rfl, packetRead_eq,
      crcCheck_of_packet (lo := (draw s).1) (by simpa using hcheck) hlen hset]
    refine ⟨fun hcrc => ?_, fun hcrc => ?_⟩
    · rw [if_pos hcrc, ← hset]
      rfl
    · rw [if_neg hcrc, failEntry_readOp _ _ ⟨dst, blk, ofs, cnt⟩ .clean rfl, ← hset]
      rfl

end Sys2Proof.Machine
end

section
/-! PROOF. What `READ_PARTIAL` leaves unchanged: the registers of `INITIALIZE`, the results, and the destination outside
what each event may write (R62, R210). -/

namespace Sys2Proof.Machine

/-! ## Registers and results -/

/-- The registers that `INITIALIZE` alone writes, and the results, do not change from `s` to `t` (R26, R210). -/
structure KeepsInitWork (s t : State) : Prop where
  tmr : t.work.tmr = s.work.tmr
  buf : t.work.buf = s.work.buf
  ty : t.work.ty = s.work.ty
  pcmd : t.work.pcmd = s.work.pcmd
  results : t.results = s.results

theorem KeepsInitWork.trans {s t u : State} (h : KeepsInitWork s t) (h' : KeepsInitWork t u) : KeepsInitWork s u where
  tmr := h'.tmr.trans h.tmr
  buf := h'.buf.trans h.buf
  ty := h'.ty.trans h.ty
  pcmd := h'.pcmd.trans h.pcmd
  results := h'.results.trans h.results

theorem DispatchFrame.keepsInitWork {s t : State} (h : DispatchFrame s t) : KeepsInitWork s t := by
  constructor
  case results => exact h.results
  all_goals rw [h.work]

/-- The failure entry of a read writes `RESULT` alone (R233). -/
theorem failEntry_keepsInitWork {s : State} {ops : ReadOperands} {p : ReadPos} (hp : s.pos = .readOp ops p)
    (f : Failure) : KeepsInitWork s (failEntry f s) := by
  rw [failEntry_readOp f s ops p hp]
  exact ⟨rfl, rfl, rfl, rfl, rfl⟩

theorem tokenStep_keepsInitWork {ops : ReadOperands} {s t : State} (hp : s.pos = .readOp ops .token)
    (h : tokenStep ops s = .next t) : KeepsInitWork s t := by
  obtain ⟨bc, -, rfl⟩ := tokenStep_cases h
  have hread : KeepsInitWork s (tokenRead bc s) := ⟨rfl, rfl, rfl, rfl, by simp [tokenRead]⟩
  have hpos : (tokenRead bc s).pos = .readOp ops .token := by simpa [tokenRead] using hp
  split
  · rcases tokenDecide_cases ops (draw s).1 (tokenRead bc s) with hd | ⟨f, hd⟩
    · rw [hd]
      exact hread.trans ⟨rfl, rfl, rfl, rfl, rfl⟩
    · rw [hd]
      exact hread.trans (failEntry_keepsInitWork hpos f)
  · exact hread

theorem nextPacket_keepsInitWork {ops : ReadOperands} {j : Fin 514} {s t : State} (h : nextPacket ops j s = .next t) :
    KeepsInitWork s t := by
  rcases nextPacket_cases h with ⟨j', -, rfl⟩ | ⟨-, h⟩
  · exact ⟨rfl, rfl, rfl, rfl, rfl⟩
  · have hgo : KeepsInitWork s (gotoRead ops .clean { s with work := { s.work with result := some .ok } }) :=
      ⟨rfl, rfl, rfl, rfl, rfl⟩
    rcases crcCheck_cases h with rfl | ⟨computed, received, rfl⟩
    · exact hgo
    · exact hgo.trans (failEntry_keepsInitWork (gotoRead_pos ..) _)

theorem packetStep_keepsInitWork {ops : ReadOperands} {j : Fin 514} {s t : State} (h : packetStep ops j s = .next t) :
    KeepsInitWork s t := by
  have hread : KeepsInitWork s (packetRead j s) := ⟨rfl, rfl, rfl, rfl, by simp [packetRead]⟩
  rw [packetStep_eq] at h
  split at h
  · cases h
    exact hread.trans ⟨rfl, rfl, rfl, rfl, rfl⟩
  · exact hread.trans (nextPacket_keepsInitWork h)

/-- Before its release no event of a read writes a register of `INITIALIZE` or returns a result (R209, R210). -/
theorem readEvent_keepsInitWork {ops : ReadOperands} {p : ReadPos} {s t : State} (hp : s.pos = .readOp ops p)
    (hne : p ≠ .release) (h : readEvent ops p s = .next t) : KeepsInitWork s t := by
  cases p with
  | cmd17 => exact (dispatchEvent_frame h).keepsInitWork
  | token => exact tokenStep_keepsInitWork hp h
  | copy =>
    obtain rfl : copyStep ops s = t := Host.Outcome.next.inj h
    constructor <;> simp [copyStep]
  | packet j => exact packetStep_keepsInitWork h
  | write j =>
    obtain ⟨v, -, h⟩ := need_eq_next.mp h
    have hwrite : KeepsInitWork s (dstWrite ops.dst (j.val - ops.ofs.toNat) v s) := ⟨rfl, rfl, rfl, rfl, rfl⟩
    exact hwrite.trans (nextPacket_keepsInitWork h)
  | clean =>
    cases h
    exact ⟨rfl, rfl, rfl, rfl, rfl⟩
  | release => exact absurd rfl hne

/-! ## The destination -/

/-- The event due at `p` may write address `a`: a `Copy` event and a failed read's return the window, a `Wr` event its
one position (R62, R211). -/
def ReadPos.mayWrite (ops : ReadOperands) (p : ReadPos) (a : Nat) : Prop :=
  match p with
  | .copy | .release => destAddr ops.dst 0 ≤ a ∧ a < destAddr ops.dst 0 + ops.cnt.toNat
  | .write j => a = destAddr ops.dst (j.val - ops.ofs.toNat)
  | .cmd17 | .token | .packet _ | .clean => False

/-- An event of a read changes no byte it may not write. -/
theorem readEvent_dest {ops : ReadOperands} {p : ReadPos} {s t : State} {a : Nat}
    (h : readEvent ops p s = .next t) (ha : ¬ p.mayWrite ops a) : t.dest.read a = s.dest.read a := by
  cases p with
  | cmd17 => rw [(dispatchEvent_frame h).dest]
  | token => rw [tokenStep_dest h]
  | copy =>
    obtain rfl : copyStep ops s = t := Host.Outcome.next.inj h
    by_contra hne
    simp only [copyStep, copyWindow, gotoRead_dest, drawMany_dest, emit_dest] at hne
    obtain ⟨hlo, hhi⟩ := Memory.mem_window_of_writeList hne
    exact ha ⟨hlo, hhi.trans_le (by simp)⟩
  | packet j => rw [packetStep_dest h]
  | write j =>
    obtain ⟨v, -, h⟩ := need_eq_next.mp h
    rw [(nextPacket_quiet h).dest, dstWrite_dest, Memory.read_write_other _ _ _ _ ha]
  | clean =>
    cases h
    rfl
  | release =>
    obtain ⟨r, -, h⟩ := need_eq_next.mp h
    cases h
    cases r with
    | ok => simp [destAfter]
    | error =>
      by_contra hne
      simp only [destAfter, returnToHost_dest, scrambleWindow_dest, dummyExchange_dest] at hne
      exact ha (by simpa [freeBytes, ReadPos.mayWrite] using Memory.mem_window_of_writeList hne)

/-- Where the invariant holds, an event of a read may write only the window (R62). -/
theorem ReadPos.window_of_mayWrite {ops : ReadOperands} {p : ReadPos} {s : State} {a : Nat}
    (hok : readOk ops p s = true) (h : p.mayWrite ops a) :
    destAddr ops.dst 0 ≤ a ∧ a < destAddr ops.dst 0 + ops.cnt.toNat := by
  cases p with
  | copy | release => exact h
  | write j =>
    obtain ⟨-, -, -, -, -, hin⟩ := readOk_write.mp hok
    obtain ⟨hlo, hhi⟩ := inWindow_iff.mp hin
    obtain rfl : a = destAddr ops.dst (j.val - ops.ofs.toNat) := h
    simp only [destAddr]
    omega
  | cmd17 | token | packet _ | clean => exact h.elim

/-- Settles O43: a refusal and an acceptance write neither the destination nor a result, and an event writes what its
position allows. -/
theorem readPartialFrame : Obligations.ReadPartialFrame := by
  intro dst blk ofs cnt s t hinv h
  obtain ⟨-, rfl | ⟨hidle, -, -, h⟩ | ⟨p, hp, -, h⟩⟩ := execReadPartial_cases h
  · exact ⟨rfl, rfl, fun _ => rfl, .inr (.inr ⟨rfl, rfl, rfl, rfl⟩), fun _ _ => rfl, fun _ _ _ _ => rfl,
      fun _ _ _ _ => rfl, .inr rfl⟩
  · have hf := dispatchEvent_frame h
    have hdest (a : Nat) : t.dest.read a = s.dest.read a := by rw [hf.dest, startRead_dest]
    exact ⟨hf.params, hf.cardType, fun _ => hf.results, .inl hidle, fun a _ => hdest a, fun _ _ a _ => hdest a,
      fun _ _ _ a => hdest a, .inl hf.refused⟩
  · have hf := readEvent_frame h
    have hcard : t.cardType = s.cardType := hf.cardType.resolve_right fun ⟨hinit, _⟩ => nomatch hp.symm.trans hinit
    have hok := readOk_of_inv hinv hp
    have hkeeps (hne : p ≠ .release) : KeepsInitWork s t := readEvent_keepsInitWork hp hne h
    refine ⟨hf.params, hcard, fun hne => (hkeeps (by rintro rfl; exact hne hp)).results, ?_, fun a ha => ?_,
      fun j hj a ha => ?_, fun hcopy hrelease hwrite a => ?_, .inl hf.refused⟩
    · by_cases hrelease : p = .release
      · exact .inr (.inl (hrelease ▸ hp))
      · have hk := hkeeps hrelease
        exact .inr (.inr ⟨hk.tmr, hk.buf, hk.ty, hk.pcmd⟩)
    · exact readEvent_dest h fun hmay => by
        obtain ⟨hlo, hhi⟩ := ReadPos.window_of_mayWrite hok hmay
        exact ha.elim hlo.not_gt hhi.not_ge
    · cases hp.symm.trans hj
      exact readEvent_dest h ha
    · refine readEvent_dest h ?_
      cases p with
      | copy => exact absurd hp hcopy
      | release => exact absurd hp hrelease
      | write j => exact absurd hp (hwrite j)
      | cmd17 | token | packet _ | clean => exact id

end Sys2Proof.Machine
end

section
/-! PROOF. Failure labels: a step keeps the label, is the failure entry of the running operation, or accepts a request
(R232, R233, R237). -/

namespace Sys2Proof.Machine

/-! ## Keeping a label and recording one -/

/-- The operation has begun and has not reached its cleanup: it can still fail (R232, R237). -/
def Position.mayFail (p : Position) : Bool :=
  match p with
  | .idle => false
  | .initOp .clean | .initOp .release => false
  | .readOp _ .clean | .readOp _ .release => false
  | .initOp _ | .readOp _ _ => true

/-- From `s` to `t` no label is recorded or dropped, and an operation that could not fail still cannot. -/
structure KeepsLabel (s t : State) : Prop where
  failure : t.failure = s.failure
  mayFail : t.pos.mayFail = true → s.pos.mayFail = true

/-- From `s`, where the running operation can fail, to its cleanup `t`, by the failure entry (R233). -/
structure FailureEntry (s t : State) : Prop where
  mayFail : s.pos.mayFail = true
  calls : t.calls = []
  cleanup : (t.pos = .initOp .clean ∧ t.work.ty = some 0x00#8) ∨
    ∃ ops, t.pos = .readOp ops .clean ∧ t.work.result = some .error

/-- From `s` to `t` the label stays as it is, or the running operation fails. -/
def LabelStep (s t : State) : Prop := KeepsLabel s t ∨ FailureEntry s t

theorem KeepsLabel.of_pos_eq {s t : State} (hf : t.failure = s.failure) (hp : t.pos = s.pos) : KeepsLabel s t :=
  ⟨hf, fun h => hp ▸ h⟩

theorem DispatchFrame.keepsLabel {s t : State} (h : DispatchFrame s t) : KeepsLabel s t :=
  .of_pos_eq h.failure h.pos

theorem KeepsLabel.labelStep_trans {s u t : State} (h : KeepsLabel s u) (h' : LabelStep u t) : LabelStep s t :=
  h'.imp (fun k => ⟨k.failure.trans h.failure, fun hm => h.mayFail (k.mayFail hm)⟩)
    fun e => ⟨h.mayFail e.mayFail, e.calls, e.cleanup⟩

theorem LabelStep.of_mayFail {s t : State} (hs : s.pos.mayFail = true) (hf : t.failure = s.failure) : LabelStep s t :=
  .inl ⟨hf, fun _ => hs⟩

/-- `failEntry` in an operation, with no command in progress, is the failure entry (R233). -/
theorem failEntry_labelStep {s m : State} (hs : s.pos.mayFail = true) (hm : m.pos ≠ .idle) (hc : m.calls = [])
    (f : Failure) : LabelStep s (failEntry f m) := by
  refine .inr ⟨hs, (failEntry_calls f m).trans hc, ?_⟩
  cases hp : m.pos with
  | idle => exact absurd hp hm
  | initOp p =>
    rw [failEntry_initOp f m p hp]
    exact .inl ⟨rfl, rfl⟩
  | readOp ops p =>
    rw [failEntry_readOp f m ops p hp]
    exact .inr ⟨ops, rfl, rfl⟩

/-! ## Events, with no command in progress -/

/-- Of the events of `INITIALIZE` only the echo check fails (R165). -/
theorem initEvent_labelStep {p : InitPos} {s t : State} (hp : s.pos = .initOp p) (hc : s.calls = [])
    (h : initEvent p s = .next t) : LabelStep s t := by
  cases p with
  | warm k =>
    obtain rfl : warmStep k s = t := Host.Outcome.next.inj h
    refine .of_mayFail (by rw [hp]; rfl) ?_
    by_cases hlt : k + 1 < s.params.nWarmupDesel + s.params.nWarmupSel + 2
    · simp [warmStep_of_lt hlt]
    · simp [warmStep_of_last hlt]
  | echo k =>
    have hrun : s.pos.mayFail = true := by rw [hp]; rfl
    rcases echoStep_cases h with ⟨k', -, rfl⟩ | ⟨rfl, rfl | ⟨b0, b1, b2, b3, rfl⟩⟩
    · exact .of_mayFail hrun (by simp)
    · exact .of_mayFail hrun (by simp)
    · exact failEntry_labelStep hrun (by simp [hp]) (by simp [hc]) _
  | ocrRead k =>
    refine .of_mayFail (by rw [hp]; rfl) ?_
    rcases ocrStep_cases h with ⟨k', -, rfl⟩ | ⟨rfl, b0, rfl⟩ <;> simp
  | clean =>
    obtain ⟨ty, -, rfl⟩ := initClean_cases h
    exact .inl ⟨rfl, nofun⟩
  | release =>
    obtain ⟨ty, -, rfl⟩ := initRelease_cases h
    exact .inl ⟨by simp, nofun⟩
  | cmd0 | cmd8 | hcs | ocr | probe | idlex | blen => exact .inl (dispatchEvent_frame h).keepsLabel

/-- The end of the packet fails where the CRC-16 does not match (R208). -/
theorem nextPacket_labelStep {ops : ReadOperands} {j : Fin 514} {s m t : State} (hs : s.pos.mayFail = true)
    (hf : m.failure = s.failure) (hc : m.calls = []) (h : nextPacket ops j m = .next t) : LabelStep s t := by
  rcases nextPacket_cases h with ⟨j', -, rfl⟩ | ⟨-, h⟩
  · exact .of_mayFail hs hf
  · rcases crcCheck_cases h with rfl | ⟨computed, received, rfl⟩
    · exact .of_mayFail hs hf
    · exact failEntry_labelStep hs (by simp) (by simpa using hc) _

/-- Of the events of `READ_PARTIAL` the token reads and the end of the packet fail (R204, R208). -/
theorem readEvent_labelStep {ops : ReadOperands} {p : ReadPos} {s t : State} (hp : s.pos = .readOp ops p)
    (hc : s.calls = []) (h : readEvent ops p s = .next t) : LabelStep s t := by
  cases p with
  | cmd17 => exact .inl (dispatchEvent_frame h).keepsLabel
  | token =>
    have hrun : s.pos.mayFail = true := by rw [hp]; rfl
    obtain ⟨bc, -, rfl⟩ := tokenStep_cases h
    split
    · rcases tokenDecide_cases ops (draw s).1 (tokenRead bc s) with hd | ⟨f, hd⟩
      · rw [hd]
        exact .of_mayFail hrun (by simp [tokenRead])
      · rw [hd]
        exact failEntry_labelStep hrun (by simp [tokenRead, hp]) (by simp [tokenRead, hc]) f
    · exact .of_mayFail hrun (by simp [tokenRead])
  | copy =>
    obtain rfl : copyStep ops s = t := Host.Outcome.next.inj h
    exact .of_mayFail (by rw [hp]; rfl) (by simp [copyStep])
  | packet j =>
    have hrun : s.pos.mayFail = true := by rw [hp]; rfl
    rw [readEvent, packetStep_eq] at h
    split at h
    · cases h
      exact .of_mayFail hrun (by simp [packetRead])
    · exact nextPacket_labelStep hrun (by simp [packetRead]) (by simp [packetRead, hc]) h
  | write j =>
    obtain ⟨v, -, h⟩ := need_eq_next.mp h
    exact nextPacket_labelStep (m := dstWrite ..) (by rw [hp]; rfl) rfl hc h
  | clean =>
    cases h
    exact .inl ⟨rfl, nofun⟩
  | release =>
    obtain ⟨r, -, h⟩ := need_eq_next.mp h
    cases h
    exact .inl ⟨by simp, nofun⟩

/-! ## Returns -/

/-- The response use of `INITIALIZE` (R163 to R171). -/
theorem initReturn_labelStep {p : InitPos} {s t : State} (hp : s.pos = .initOp p) (hc : s.calls = [])
    (h : initReturn p s = .next t) : LabelStep s t := by
  have running (h : (Position.initOp p).mayFail = true) : s.pos.mayFail = true := by rwa [hp]
  have fails {m : State} (hs : s.pos.mayFail = true) (hm : m.pos = s.pos) (hmc : m.calls = s.calls) (f : Failure) :
      LabelStep s (failEntry f m) :=
    failEntry_labelStep hs (by simp [hm, hp]) (hmc.trans hc) f
  cases p with
  | cmd0 =>
    obtain ⟨res, -, h⟩ := need_eq_next.mp h
    cases h
    unfold afterCmd0
    split
    · exact .of_mayFail (running rfl) rfl
    · exact fails (running rfl) rfl rfl _
  | cmd8 =>
    obtain ⟨res, -, h⟩ := need_eq_next.mp h
    cases h
    refine .of_mayFail (running rfl) ?_
    unfold afterCmd8
    split <;> rfl
  | hcs =>
    obtain ⟨res, -, h⟩ := need_eq_next.mp h
    obtain ⟨tmr, -, h⟩ := need_eq_next.mp h
    cases h
    unfold afterHcs
    dsimp only
    split
    · exact .of_mayFail (running rfl) rfl
    · exact .of_mayFail (running rfl) rfl
    · exact fails (m := { s with work.tmr := some (pollTurn res tmr).1 }) (running rfl) rfl rfl _
  | ocr =>
    obtain ⟨res, -, h⟩ := need_eq_next.mp h
    cases h
    unfold afterOcr
    split
    · exact .of_mayFail (running rfl) rfl
    · exact fails (running rfl) rfl rfl _
  | probe =>
    obtain ⟨res, -, h⟩ := need_eq_next.mp h
    cases h
    exact .of_mayFail (running rfl) rfl
  | idlex =>
    obtain ⟨res, -, h⟩ := need_eq_next.mp h
    obtain ⟨tmr, -, h⟩ := need_eq_next.mp h
    obtain ⟨pcmd, -, h⟩ := need_eq_next.mp h
    cases h
    unfold afterIdlex
    dsimp only
    split
    · exact .of_mayFail (running rfl) rfl
    · exact .of_mayFail (running rfl) rfl
    · exact fails (m := { s with work.tmr := some (pollTurn res tmr).1 }) (running rfl) rfl rfl _
  | blen =>
    obtain ⟨res, -, h⟩ := need_eq_next.mp h
    cases h
    unfold afterBlen
    split
    · exact .of_mayFail (running rfl) rfl
    · exact fails (running rfl) rfl rfl _
  | warm _ | echo _ | ocrRead _ | clean | release =>
    cases h
    exact .inl (.of_pos_eq rfl rfl)

/-- The response use of `READ_PARTIAL` (R203). -/
theorem readReturn_labelStep {ops : ReadOperands} {p : ReadPos} {s t : State} (hp : s.pos = .readOp ops p)
    (hc : s.calls = []) (h : readReturn ops p s = .next t) : LabelStep s t := by
  cases p with
  | cmd17 =>
    have hrun : s.pos.mayFail = true := by rw [hp]; rfl
    obtain ⟨res, -, h⟩ := need_eq_next.mp h
    obtain ⟨addr, -, h⟩ := need_eq_next.mp h
    cases h
    unfold afterCmd17
    split
    · exact .of_mayFail hrun rfl
    · exact failEntry_labelStep hrun (by simp [hp]) hc _
  | token | copy | packet _ | write _ | clean | release =>
    cases h
    exact .inl (.of_pos_eq rfl rfl)

theorem operationReturn_labelStep {s t : State} (h : operationReturn s = .next t) : LabelStep s t := by
  unfold operationReturn at h
  split at h
  · cases h
    exact .inl (.of_pos_eq rfl rfl)
  · split at h
    · cases h
      exact .inl (.of_pos_eq rfl rfl)
    · exact initReturn_labelStep ‹_› ‹_› h
    · exact readReturn_labelStep ‹_› ‹_› h

theorem prefixReturn_keepsLabel {s t : State} (h : prefixReturn s = .next t) : KeepsLabel s t := by
  rcases prefixReturn_cases h with ⟨w, rest, res, -, -, rfl⟩ | ⟨-, rfl⟩
  · exact .of_pos_eq rfl rfl
  · exact .of_pos_eq rfl rfl

/-- The resolution of returns keeps the label or is the failure entry (R28). -/
theorem settle_labelStep {s t : State} (h : settle s = .next t) : LabelStep s t := by
  obtain ⟨u, hu, h⟩ := andThen_eq_next.mp h
  exact (prefixReturn_keepsLabel hu).labelStep_trans (operationReturn_labelStep h)

/-- After the failure entry no return is left to resolve. -/
theorem FailureEntry.settle_eq {s t : State} (h : FailureEntry s t) : settle t = .next t := by
  rw [settle_of_no_call h.calls, operationReturn, h.calls]
  rcases h.cleanup with ⟨hp, -⟩ | ⟨ops, hp, -⟩
  · rw [hp]
    rfl
  · rw [hp]
    rfl

/-! ## A step -/

/-- Acceptance drops the label of the operation before, and leaves no return to resolve (R29). -/
structure Accepts (s t : State) : Prop where
  idle : s.pos = .idle
  calls : s.calls = []
  failure : t.failure = none
  settled : settle t = .next t

theorem acceptInit_accepts {s t : State} (hp : s.pos = .idle) (hc : s.calls = []) (hl : paramsLegal s.params = true)
    (h : acceptInit s = .next t) : Accepts s t := by
  rw [acceptInit_of_legal hl] at h
  cases h
  have hcalls : (gotoInit (.warm 1) (select false (acceptRequest s))).calls = [] := hc
  exact ⟨hp, hc, rfl, by simp [settle_of_no_call hcalls, operationReturn, hc, initReturn]⟩

theorem startRead_accepts {s t : State} {ops : ReadOperands} (hp : s.pos = .idle) (hc : s.calls = [])
    (h : dispatchEvent (startRead ops s) = .next t) : Accepts s t := by
  refine ⟨hp, hc, (dispatchEvent_frame h).failure, ?_⟩
  have hcalls : ∃ w, (startRead ops s).calls = [⟨w, .bracket 0⟩] := ⟨_, by rw [startRead_calls, hc]; rfl⟩
  obtain ⟨w, hw⟩ := hcalls
  simp only [dispatchEvent, hw] at h
  cases h
  exact settle_of_call (c := ⟨w, .bracket 1⟩) (rest := []) rfl nofun

/-- A host operation whose event is due is fetched with no command in progress (R28). -/
theorem calls_nil_of_fetch {s : State} {i : Instr} (hf : fetch s = .instr i) (hi : commandOf i = none)
    (hr : s.request = none) : s.calls = [] := by
  rcases fetch_cases hf with ⟨r, hr', -⟩ | ⟨c, rest, -, -, hd⟩ | ⟨p, -, hc, -, -⟩ | ⟨ops, p, -, hc, -, -⟩
  · cases hr.symm.trans hr'
  · obtain ⟨code, arg, hi', -⟩ := decodeFrame_cases hd
    cases hi.symm.trans hi'
  · exact hc
  · exact hc

/-- What the instruction fetched does to the label. -/
theorem exec_labelStep {i : Instr} {s t : State} (hf : fetch s = .instr i) (h : exec i s = .next t) :
    LabelStep s t ∨ Accepts s t := by
  cases i with
  | hostInitialize =>
    obtain ⟨hl, rfl | ⟨hp, hc, h⟩ | ⟨p, hp, hr, h⟩⟩ := execInitialize_cases h
    · exact .inl (.inl (.of_pos_eq rfl rfl))
    · exact .inr (acceptInit_accepts hp hc hl h)
    · exact .inl (initEvent_labelStep hp (calls_nil_of_fetch hf rfl hr) h)
  | readPartial dst blk ofs cnt =>
    obtain ⟨-, rfl | ⟨hp, hc, -, h⟩ | ⟨p, hp, hr, h⟩⟩ := execReadPartial_cases h
    · exact .inl (.inl (.of_pos_eq rfl rfl))
    · exact .inr (startRead_accepts hp hc h)
    · exact .inl (readEvent_labelStep hp (calls_nil_of_fetch hf rfl hr) h)
  | acmd41 hcs =>
    cases hcs <;> exact .inl (.inl (exec_command_frame rfl h).keepsLabel)
  | _ => exact .inl (.inl (exec_command_frame rfl h).keepsLabel)

/-- A step keeps the label, is the failure entry, or accepts a request. -/
theorem step_labelStep {s t : State} (h : step s = .next t) : LabelStep s t ∨ Accepts s t := by
  rcases step_cases h with ⟨-, rfl⟩ | ⟨-, rfl⟩ | ⟨i, u, hf, hu, ht⟩
  · exact .inl (.inl (.of_pos_eq rfl rfl))
  · exact .inl (.inl (.of_pos_eq rfl rfl))
  · have done (hset : settle u = .next u) : u = t := Host.Outcome.next.inj (hset.symm.trans ht)
    rcases exec_labelStep hf hu with (k | e) | a
    · exact .inl (k.labelStep_trans (settle_labelStep ht))
    · exact .inl (.inr (done e.settle_eq ▸ e))
    · exact .inr (done a.settled ▸ a)

/-! ## The two statements -/

/-- Settles O52: the step is the failure entry, at whose cleanup `CARD_TYPE` is not written (R23). -/
theorem failureEntryGoesToCleanup : Obligations.FailureEntryGoesToCleanup := by
  intro s t f h hs ht
  rcases step_labelStep h with (k | e) | a
  · rw [k.failure, hs] at ht
    cases ht
  · refine ⟨e.cleanup, e.calls, by_contra fun hcard => ?_⟩
    obtain ⟨-, -, hrelease⟩ := cardTypeIsWrittenOnlyAtCleanup s t h hcard
    rcases e.cleanup with ⟨hp, -⟩ | ⟨ops, hp, -⟩
    · cases hp.symm.trans hrelease
    · cases hp.symm.trans hrelease
  · cases a.failure.symm.trans ht

/-- Where the operation can still fail, no label is recorded (R237). -/
theorem failure_eq_none_of_mayFail {s : State} (hinv : s.inv = true) (hs : s.pos.mayFail = true) :
    s.failure = none := by
  have ofInit (h : initPending s = true) : s.failure = none := (initPending_iff.mp h).2
  have ofRead (h : readPending s = true) : s.failure = none := (readPending_iff.mp h).2
  cases hp : s.pos with
  | idle => simp [hp, Position.mayFail] at hs
  | initOp p =>
    have hok := initOk_of_inv hinv hp
    cases p with
    | warm k =>
      obtain ⟨-, -, hnone⟩ := initOk_warm.mp hok
      exact hnone
    | cmd0 => exact ofInit (initOk_cmd0.mp hok).2
    | cmd8 => exact ofInit (initOk_cmd8.mp hok).2
    | echo k =>
      obtain ⟨-, hpend, -⟩ := initOk_echo.mp hok
      exact ofInit hpend
    | hcs =>
      obtain ⟨-, hpend, -⟩ := initOk_hcs.mp hok
      exact ofInit hpend
    | ocr => exact ofInit (initOk_ocr.mp hok).2
    | ocrRead k =>
      obtain ⟨-, hpend, -⟩ := initOk_ocrRead.mp hok
      exact ofInit hpend
    | probe => exact ofInit (initOk_probe.mp hok).2
    | idlex => exact (initOk_idlex.mp hok).1
    | blen =>
      obtain ⟨-, hnone, -⟩ := initOk_blen.mp hok
      exact hnone
    | clean | release => simp [hp, Position.mayFail] at hs
  | readOp ops p =>
    have hok := readOk_of_inv hinv hp
    cases p with
    | cmd17 =>
      obtain ⟨-, addr, -, -, hpend⟩ := readOk_cmd17.mp hok
      exact ofRead hpend
    | token =>
      obtain ⟨-, -, hpend, -⟩ := readOk_token.mp hok
      exact ofRead hpend
    | copy =>
      obtain ⟨-, -, hpend, -⟩ := readOk_copy.mp hok
      exact ofRead hpend
    | packet j =>
      obtain ⟨-, -, hpend, -⟩ := readOk_packet.mp hok
      exact ofRead hpend
    | write j =>
      obtain ⟨-, -, hpend, -⟩ := readOk_write.mp hok
      exact ofRead hpend
    | clean | release => simp [hp, Position.mayFail] at hs

/-- Settles O53: a failure entry needs an operation that can still fail, which has no label. -/
theorem firstFailureIsTheOnlyOne : Obligations.FirstFailureIsTheOnlyOne := by
  intro s t f hinv h hs
  rcases step_labelStep h with (k | e) | a
  · exact .inl (k.failure.trans hs)
  · cases (failure_eq_none_of_mayFail hinv e.mayFail).symm.trans hs
  · exact .inr ⟨a.idle, a.calls, a.failure⟩

end Sys2Proof.Machine
end
